-- ==== Sys2Proof/Word.lean ====
section
/-! DEFINITION. The word, byte and frame types of the block (00_scope.md R6, 10_state.md R23). -/

namespace Sys2Proof

/-- One 32-bit frame word (R6 `WORD`, R60); bit 31 is transmitted first (R7, R42). -/
abbrev Word := BitVec 32

/-- Eight bits, as a pixel word is read in R44. -/
abbrev Byte := BitVec 8

/-- A frame: the data bits of its bit-pairs in transmission order, `true` for bit 1 (R23, D1).
The clock half of a bit-pair is always one pulse and is not represented. -/
abbrev Frame := List Bool

end Sys2Proof
end

