-- ==== Sys2Proof/Config.lean ====
section
/-! DEFINITION. What the spec fixes for every implementation, the parameters it leaves open, and the free values. -/

namespace Sys2Proof

namespace Config

/-- R6 `WORD`. -/
def wordBits : Nat := 32
/-- R6 `BRI_W`. -/
def briBits : Nat := 5
/-- R6 `COL_W`. -/
def colBits : Nat := 8
/-- R6 `HDR`: the three header bits of a pixel word. -/
def header : BitVec 3 := 0b111#3
/-- R6, D6: data, clock High, clock Low. -/
def callsPerBit : Nat := 3

/-- The bounds R6 leaves open, each `none` for 'unbounded': `nMax` is `N_MAX` (D4) and `wIdx` is `W_IDX` (D5).
The machine takes them as an argument, the field `params` of State, which no step changes
(DESIGN CHOICE: notes/assumptions/2.md). -/
structure Params where
  nMax : Option Nat
  wIdx : Option Nat
  deriving DecidableEq, Repr

/-- R6: the default of `N_MAX`, unbounded, and the unbounded naturals that the model uses for `W_IDX`. -/
def params : Params := { nMax := none, wIdx := none }

/-- A size that an open bound admits. -/
def withinBound (bound : Option Nat) (n : Nat) : Bool :=
  match bound with
  | none => true
  | some m => decide (n ≤ m)

/-- R6, D4: a strip of `n` pixels is not larger than `N_MAX`. -/
def Params.acceptsStrip (p : Params) (n : Nat) : Bool := withinBound p.nMax n

/-- R6, D5: `W_IDX` bits number the bit-pairs of a frame of `n` bits, `n ≤ 2^W_IDX`. -/
def Params.acceptsFrame (p : Params) (n : Nat) : Bool := withinBound (p.wIdx.map (2 ^ ·)) n

end Config

/-- Which tokens besides 0 are error values of the collaborator.  A free value: it has no body that a proof can see, so
nothing is known of the type `Cause` but that it has a value (notes/assumptions/3.md). -/
opaque Config.isCause : Nat → Bool

/-- R6 `Cause`, D13: the opaque type of the collaborator's error values.  The block never looks inside one (R141).
DESIGN CHOICE for the form: an unknown set of tokens, notes/assumptions/3.md. -/
structure Cause where
  token : Nat
  valid : (token == 0 || Config.isCause token) = true
  deriving DecidableEq, Repr

/-- The one error value that is known to exist. -/
def Cause.base : Cause := { token := 0, valid := rfl }

/-- What one `set_level` call returns (R113). -/
inductive Answer where
  | ok
  | err (cause : Cause)
  deriving DecidableEq, Repr, Inhabited

/-- The collaborator's answer to the `n`-th call, where State lists none (R113: "its outcome is decided by the
collaborator, not by the block").  A free value: it has no body that a proof can see (notes/assumptions/4.md). -/
opaque Config.freeAnswer : Nat → Answer

end Sys2Proof
end

