-- ==== Sys2Proof/Syntax.lean ====
section
/-! DEFINITION. The operations, emitters and micro-steps of the block, one constructor per row of spec/opcode_table.json. -/

namespace Sys2Proof

/-- R21: natural-number fields of any size; they are masked when they are encoded (R64, D3). -/
structure Pixel where
  brightness : Nat
  red : Nat
  green : Nat
  blue : Nat
  deriving DecidableEq, Repr

/-- R22: the pixels in the order of their physical position. -/
abbrev Strip := List Pixel

/-- The collaborator's reference to one output line (R128). DESIGN CHOICE: a numbered token, notes/assumptions/5.md. -/
structure Handle where
  id : Nat
  deriving DecidableEq, Repr

/-- R24: the two output lines. -/
inductive Line where
  | clock
  | data
  deriving DecidableEq, Repr

/-- R24: the two logical levels a call can ask for. -/
inductive Level where
  | low
  | high
  deriving DecidableEq, Repr

/-- R27: which call the driver issues next. -/
inductive Phase where
  | idle
  | data
  | clkHi
  | clkLo
  | tail
  | rstClk
  | rstDat
  deriving DecidableEq, Repr

/-- The frame operand of TRANSMIT in the notation of R68: a bit literal, a literal of 32-bit words, or the frame
that the last ENCODE returned (`F := ENCODE …; TRANSMIT F`). -/
inductive FrameArg where
  | bits (f : Frame)
  | words (ws : List Word)
  | returned
  deriving DecidableEq, Repr

/-- One constructor per row of spec/opcode_table.json. -/
inductive Instr where
  /-- ENCODE, R83. -/
  | encode (strip : Strip)
  /-- TRANSMIT, R110. -/
  | transmit (frame : FrameArg) (clockLine dataLine : Handle)
  /-- EMIT_START, R85. -/
  | emitStart
  /-- EMIT_PIXEL, R86. -/
  | emitPixel (pixel : Pixel)
  /-- EMIT_LATCH, R87; the operand is the pixel count `N`. -/
  | emitLatch (count : Nat)
  /-- DRV_DATA, R114; the operand is the data bit `fr[i]`. -/
  | drvData (bit : Bool)
  /-- DRV_CLK_RISE, R115. -/
  | drvClkRise
  /-- DRV_CLK_FALL, R116. -/
  | drvClkFall
  /-- DRV_TAIL, R117. -/
  | drvTail
  /-- DRV_RST_CLK, R118. -/
  | drvRstClk
  /-- DRV_RST_DAT, R119. -/
  | drvRstDat
  deriving DecidableEq, Repr

end Sys2Proof
end

