-- ==== Sys2Proof/WellFormed.lean ====
section
/-! DEFINITION. The checks on an instruction that the spec's parameters and premises ask for. -/

namespace Sys2Proof

/-- How many bits a literal frame operand has; the frame that ENCODE returned is known only to the state. -/
def FrameArg.literalLength : FrameArg → Option Nat
  | .bits f => some f.length
  | .words ws => some (Config.wordBits * ws.length)
  | .returned => none

/-- Well-formed for an implementation with the parameters `p`: a strip of at most `N_MAX` pixels (R6, D4), two
distinct line handles (R128, D30), and a frame that the bit-index counter can number (R6, D5).
Every pixel field is well-formed, since it is masked (R64). -/
def Instr.wfFor (p : Config.Params) : Instr → Bool
  | .encode strip => p.acceptsStrip strip.length
  | .transmit f c d =>
      decide (c ≠ d) &&
        match f.literalLength with
        | none => true
        | some n => p.acceptsFrame n
  | .emitStart => true
  | .emitPixel _ => true
  | .emitLatch n => p.acceptsStrip n
  | .drvData _ => true
  | .drvClkRise => true
  | .drvClkFall => true
  | .drvTail => true
  | .drvRstClk => true
  | .drvRstDat => true

/-- Well-formed for the default parameters of R6. -/
def Instr.wf (i : Instr) : Bool := i.wfFor Config.params

end Sys2Proof
end

