-- ==== Sys2Proof/Decode.lean ====
section
/-! DEFINITION. The bit-exact encodings: the decoder of frame words and line-call codes, the encoder, and the test-only
frame decoder of R92. -/

namespace Sys2Proof

/-! ### Fields, words and bits -/

/-- R64: the low `k` bits of a natural, never clamped and never rejected. -/
def maskField (k n : Nat) : Nat := n % 2 ^ k

/-- R64 applied to each field of a pixel. -/
def Pixel.masked (p : Pixel) : Pixel :=
  { brightness := maskField Config.briBits p.brightness
    red := maskField Config.colBits p.red
    green := maskField Config.colBits p.green
    blue := maskField Config.colBits p.blue }

/-- R81: `max(1, ceil(N/64))`, with the integer ceiling of R94. -/
def latchCount (n : Nat) : Nat := max 1 ((n + 63) / 64)

/-- R8 `bits32`: bit 31 first (R42). -/
def bits32 (w : Word) : Frame := (List.range 32).map w.getMsbD

/-- The word whose bits, bit 31 first, are the given 32 (the inverse of `bits32`, used by R92). -/
def wordOfBits (bs : Frame) : Word := BitVec.ofNat 32 (bs.foldl (fun n b => 2 * n + b.toNat) 0)

/-- R44: the four bytes of a word in transmission order. -/
def wordBytes (w : Word) : List Byte :=
  [w.extractLsb' 24 8, w.extractLsb' 16 8, w.extractLsb' 8 8, w.extractLsb' 0 8]

/-- R44 read the other way. -/
def wordOfBytes (b0 b1 b2 b3 : Byte) : Word := b0 ++ b1 ++ b2 ++ b3

/-- The PIXEL word laid out field by field from the table of R62. -/
def pixelWordLayout (p : Pixel) : Word :=
  Config.header ++ BitVec.ofNat 5 p.brightness ++ BitVec.ofNat 8 p.blue ++ BitVec.ofNat 8 p.green ++ BitVec.ofNat 8 p.red

/-- R62: the pattern `111LLLLLBBBBBBBBGGGGGGGGRRRRRRRR` (match 0xE0000000 under mask 0xE0000000). -/
def isPixelWord (w : Word) : Bool := w.extractLsb' 29 3 == Config.header

/-- The pixel whose (masked) fields a PIXEL word carries (R62). -/
def pixelOfWord (w : Word) : Pixel :=
  { brightness := (w.extractLsb' 24 5).toNat
    red := (w.extractLsb' 0 8).toNat
    green := (w.extractLsb' 8 8).toNat
    blue := (w.extractLsb' 16 8).toNat }

/-! ### Line-call codes -/

/-- R66: `c[1]` is the line (0 clock, 1 data) and `c[0]` the level (0 Low, 1 High). -/
def callCode (line : Line) (level : Level) : BitVec 2 :=
  match line, level with
  | .clock, .low => 0b00#2
  | .clock, .high => 0b01#2
  | .data, .low => 0b10#2
  | .data, .high => 0b11#2

/-- R25: bit 1 is driven as High and bit 0 as Low. -/
def lvl (b : Bool) : Level := if b then .high else .low

/-- A call code stored in one byte, its six high bits 0. DESIGN CHOICE: notes/assumptions/6.md. -/
def codeByte (c : BitVec 2) : Byte := c.setWidth 8

/-! ### Decoding -/

/-- What the bits alone do not say. START and LATCH have the same word and are told apart by position in the frame
(R63); the micro-steps share call codes and are told apart by phase (R66). -/
inductive Context where
  /-- at frame word 0 -/
  | frameStart
  /-- after the start word and `pixels` pixel words -/
  | frameBody (pixels : Nat)
  /-- the driver issues the call of `phase` -/
  | call (phase : Phase)
  deriving DecidableEq, Repr

/-- Why bits are no instruction. -/
inductive Reject where
  /-- fewer bytes than the instruction has -/
  | tooShort
  /-- frame word 0 is not the START word (R61) -/
  | notStartWord
  /-- neither a PIXEL word nor zero: R67 says the encoder never emits it -/
  | neverEmitted
  /-- a zero word follows, but not the `W_latch` zero words of R87 -/
  | latchTooShort
  /-- a byte above the four codes of R66 -/
  | notACallCode
  /-- the driver issues no such call in this phase (R27) -/
  | notThisPhase
  deriving DecidableEq, Repr

/-- The decoder's answer: an instruction and the bytes after it, or a rejection by name. -/
inductive Decoded where
  | ok (i : Instr) (rest : List Byte)
  | reject (why : Reject)
  deriving DecidableEq, Repr

/-- Drops `n` all-zero words (R63), or says that they are not there. -/
def dropZeroWords : Nat → List Byte → Option (List Byte)
  | 0, bs => some bs
  | n + 1, b0 :: b1 :: b2 :: b3 :: bs => if wordOfBytes b0 b1 b2 b3 = 0 then dropZeroWords n bs else none
  | _ + 1, _ => none

/-- The micro-step that issues a call code in a phase (R27, R66). -/
def microStepOf : Phase → BitVec 2 → Option Instr
  | .data, 0b10#2 => some (.drvData false)
  | .data, 0b11#2 => some (.drvData true)
  | .clkHi, 0b01#2 => some .drvClkRise
  | .clkLo, 0b00#2 => some .drvClkFall
  | .tail, 0b10#2 => some .drvTail
  | .rstClk, 0b00#2 => some .drvRstClk
  | .rstDat, 0b10#2 => some .drvRstDat
  | _, _ => none

/-- The decoder, total on any bytes (R60 to R67). -/
def decode (ctx : Context) (bytes : List Byte) : Decoded :=
  match ctx, bytes with
  | .frameStart, b0 :: b1 :: b2 :: b3 :: rest =>
      if wordOfBytes b0 b1 b2 b3 = 0 then .ok .emitStart rest else .reject .notStartWord
  | .frameBody n, b0 :: b1 :: b2 :: b3 :: rest =>
      if isPixelWord (wordOfBytes b0 b1 b2 b3) then .ok (.emitPixel (pixelOfWord (wordOfBytes b0 b1 b2 b3))) rest
      else if wordOfBytes b0 b1 b2 b3 = 0 then
        match dropZeroWords (latchCount n) bytes with
        | some after => .ok (.emitLatch n) after
        | none => .reject .latchTooShort
      else .reject .neverEmitted
  | .call ph, b :: rest =>
      if b.toNat < 4 then
        match microStepOf ph (b.setWidth 2) with
        | some i => .ok i rest
        | none => .reject .notThisPhase
      else .reject .notACallCode
  | _, _ => .reject .tooShort

/-! ### Encoding -/

/-- The bytes of an instruction, from the tables of R61, R62, R63 and R66; `none` for the two operations, which are
invoked by call and have no bit encoding (R68, opcode_table.json). -/
def encode : Instr → Option (List Byte)
  | .encode _ => none
  | .transmit _ _ _ => none
  | .emitStart => some (wordBytes 0)
  | .emitPixel p => some (wordBytes (pixelWordLayout p))
  | .emitLatch n => some ((List.replicate (latchCount n) (wordBytes 0)).flatten)
  | .drvData b => some [codeByte (callCode .data (lvl b))]
  | .drvClkRise => some [codeByte (callCode .clock .high)]
  | .drvClkFall => some [codeByte (callCode .clock .low)]
  | .drvTail => some [codeByte (callCode .data .low)]
  | .drvRstClk => some [codeByte (callCode .clock .low)]
  | .drvRstDat => some [codeByte (callCode .data .low)]

/-- Where an instruction's bits stand: the context in which they decode to it; `none` for the two operations. -/
def contextOf : Instr → Option Context
  | .encode _ => none
  | .transmit _ _ _ => none
  | .emitStart => some .frameStart
  | .emitPixel _ => some (.frameBody 0)
  | .emitLatch n => some (.frameBody n)
  | .drvData _ => some (.call .data)
  | .drvClkRise => some (.call .clkHi)
  | .drvClkFall => some (.call .clkLo)
  | .drvTail => some (.call .tail)
  | .drvRstClk => some (.call .rstClk)
  | .drvRstDat => some (.call .rstDat)

/-- The instruction with the fields its encoding carries: a pixel word keeps the low bits of each field (R64). -/
def Instr.masked : Instr → Instr
  | .encode s => .encode s
  | .transmit f c d => .transmit f c d
  | .emitStart => .emitStart
  | .emitPixel p => .emitPixel p.masked
  | .emitLatch n => .emitLatch n
  | .drvData b => .drvData b
  | .drvClkRise => .drvClkRise
  | .drvClkFall => .drvClkFall
  | .drvTail => .drvTail
  | .drvRstClk => .drvRstClk
  | .drvRstDat => .drvRstDat

/-! ### The opcode table's words -/

/-- The context in which a table word is read when nothing else is known: frame word 0 for the zero word, a pixel
position for a headed word, and the bit-pair phase that issues a call code.  The words of EMIT_LATCH, DRV_TAIL,
DRV_RST_CLK and DRV_RST_DAT equal those of another row.  DESIGN CHOICE: notes/assumptions/7.md. -/
def tableContext (nbits w : Nat) : Context :=
  if nbits = 32 then (if w = 0 then .frameStart else .frameBody 0)
  else if w = 0 then .call .clkLo
  else if w = 1 then .call .clkHi
  else .call .data

/-- The bytes of a table word as the hardware lays them out: a frame word MSB first (R44), a call code in one byte. -/
def tableBytes (nbits w : Nat) : Option (List Byte) :=
  if nbits = 32 then (if w < 2 ^ 32 then some (wordBytes (BitVec.ofNat 32 w)) else none)
  else if nbits = 2 ∨ nbits = 8 then (if w < 256 then some [BitVec.ofNat 8 w] else none)
  else none

/-- The instruction that the decoder reads from a table word. -/
def decodeTableWord (nbits w : Nat) : Option Instr :=
  match tableBytes nbits w with
  | none => none
  | some bytes =>
    match decode (tableContext nbits w) bytes with
    | .ok i _ => some i
    | .reject _ => none

/-! ### DECODE, the test-only reference of R92 (no rule of the block depends on it) -/

/-- The `n` words of 32 bits at the head of a frame, MSB first. -/
def frameToWords : Nat → Frame → List Word
  | 0, _ => []
  | n + 1, f => wordOfBits (f.take 32) :: frameToWords n (f.drop 32)

/-- R92 on the words of a frame. -/
def decodeWords : List Word → Option Strip
  | [] => none
  | w0 :: ws =>
    let px := ws.takeWhile isPixelWord
    let tail := ws.dropWhile isPixelWord
    if w0 = 0 ∧ tail = List.replicate (latchCount px.length) 0 then some (px.map pixelOfWord) else none

/-- R92: `DECODE(F)`, `none` for reject. -/
def decodeFrame (f : Frame) : Option Strip :=
  if f.length % 32 ≠ 0 ∨ f.length < 64 then none else decodeWords (frameToWords (f.length / 32) f)

end Sys2Proof
end

