-- ==== Sys2Proof/Machine/State.lean ====
section
/-! DEFINITION. The state of the block as plain data, the reasons a step can stop, and the state after reset. -/

namespace Sys2Proof.Machine

/-- R24: the value of a line register. `unknown` is a level the rules do not determine; an observation that depends on
it must hold for both levels (`LineLevel.bits`, Machine/Receiver.lean). -/
inductive LineLevel where
  | low
  | high
  | unknown
  deriving DecidableEq, Repr

/-- R141: the error record. -/
structure LineIOError where
  bitIndex : Nat
  line : Line
  cause : Cause
  deriving DecidableEq, Repr

/-- R28: the outcome of a completed TRANSMIT. -/
inductive TxResult where
  | ok
  | err (e : LineIOError)
  deriving DecidableEq, Repr

/-- One `set_level` call as the collaborator saw it (R113): the line and its handle (R128), the level asked for and
the answer. -/
structure Call where
  line : Line
  handle : Handle
  level : Level
  answer : Answer
  deriving DecidableEq, Repr

/-- What the outside world can do to the block beside answering its calls and calling it: reset it (R160, R161), or
issue a TRANSMIT without waiting for the one in progress (R111). -/
inductive EventKind where
  /-- `linesLow`: the environment meets step 2 of the boot requirement R162. -/
  | reset (linesLow : Bool)
  | transmit (frame : FrameArg) (clockLine dataLine : Handle)
  deriving DecidableEq, Repr

/-- An event lands between two calls, after `after` further steps of the block. -/
structure Event where
  after : Nat
  kind : EventKind
  deriving DecidableEq, Repr

/-- The first seven fields are all the state the spec gives the block (R24, R26).  The others are the model's own:
operands and results of calls in progress, the observation of R123, the outside world's coming inputs, and the
machine's open parameters (notes/assumptions/2.md, 4.md, 5.md, 8.md, 10.md, 11.md, 13.md and 16.md). -/
structure State where
  /-- R24: the clock output line. -/
  clk : LineLevel
  /-- R24: the data output line. -/
  dat : LineLevel
  /-- R26, R27. -/
  phase : Phase
  /-- R26: the frame latched at TRANSMIT. -/
  fr : Frame
  /-- R26: the frame position of the bit-pair being processed. -/
  i : Nat
  /-- R26: the error being reported while restoration runs. -/
  pend : Option LineIOError
  /-- R26, R28: the outcome of the last TRANSMIT. -/
  result : Option TxResult
  /-- Model's own: the frame that the last ENCODE returned to the caller (`F` of R68). -/
  returned : Option Frame
  /-- Model's own: `words` of R83, the words that the emitters have appended since EMIT_START. -/
  words : List Word
  /-- Model's own: the handle TRANSMIT bound to CLOCK (R128). -/
  clockLine : Handle
  /-- Model's own: the handle TRANSMIT bound to DATA (R128). -/
  dataLine : Handle
  /-- Model's own: `clk` before the TRANSMIT that `trace` records (R123). -/
  startClk : LineLevel
  /-- Model's own: `dat` before the TRANSMIT that `trace` records (R123). -/
  startDat : LineLevel
  /-- Model's own: the call trace of the last TRANSMIT, in issue order (R47, R68, R123). -/
  trace : List Call
  /-- Model's own input: the collaborator's coming answers, in call order (R113). -/
  answers : List Answer
  /-- Model's own: how many calls have been answered; past `answers` it selects the free value `Config.freeAnswer`. -/
  draws : Nat
  /-- Model's own input: the operations the caller will call, each when the one before has returned (R2, R47). -/
  cmds : List Instr
  /-- Model's own input: what else the outside world will do, in order. -/
  events : List Event
  /-- Model's own argument, not state: the open parameters `N_MAX` and `W_IDX` of R6, which no step changes. -/
  params : Config.Params
  deriving DecidableEq, Repr

/-- The machine stops with a fault.  Both are safe: the rules give such a state no next state, and no run reaches one
(obligation SequencerStepsNeverFault). -/
inductive Fault where
  /-- Raised by DRV_DATA and DRV_CLK_FALL and by the selection of DRV_DATA when `fr[i]` does not exist: R8 gives `F[k]`
  only for `0 ≤ k < |F|`.  Safe. -/
  | noFrameBit
  /-- Raised by DRV_RST_DAT when there is no pending error to report (R119 `Err(pend)`).  Safe. -/
  | noPendingError
  deriving DecidableEq, Repr

/-- No meaning for the instruction in this state.  All are safe: the model stops where the hardware could go on. -/
inductive Refusal where
  /-- Raised by an arm of exec that has no meaning yet.  Safe. -/
  | notModelled (mnemonic : String)
  /-- Raised by TRANSMIT when `phase ≠ IDLE` (R111: "it is refused").  Safe. -/
  | transmitInProgress
  /-- Raised by TRANSMIT when one handle is passed as clock and as data (D30: "refused").  Safe. -/
  | sameHandle
  /-- Raised by TRANSMIT of the frame that ENCODE returned, when no ENCODE has run: the notation of R68 has no such
  program.  Safe. -/
  | noEncodedFrame
  /-- Raised by ENCODE of a strip larger than `N_MAX` (D4: "A realisation with a bound refuses larger strips").  Never
  raised at the default of R6, unbounded.  Safe. -/
  | stripTooLong
  /-- Raised by TRANSMIT of a frame longer than `2^W_IDX` bits, which breaks what R6 requires of `W_IDX` (D5: "not
  modelled").  Never raised with unbounded naturals, the default.  Safe. -/
  | frameTooLong
  /-- Raised by a micro-step outside its phase: R27 gives each phase exactly one next action.  Safe. -/
  | outOfPhase
  /-- Raised by DRV_DATA with an operand that is not `fr[i]` (R114).  Safe. -/
  | notTheFrameBit
  deriving DecidableEq, Repr

/-- R30, R160: the reset value of every register.  The model's own fields: no call made, no input given, and the two
handles distinct (DESIGN CHOICE, notes/assumptions/12.md).  The parameters are the defaults of R6. -/
def State.reset : State :=
  { clk := .low, dat := .low, phase := .idle, fr := [], i := 0, pend := none, result := none
    returned := none, words := [], clockLine := { id := 0 }, dataLine := { id := 1 }
    startClk := .low, startDat := .low, trace := [], answers := [], draws := 0, cmds := [], events := []
    params := Config.params }

end Sys2Proof.Machine
end

