-- ==== Sys2Proof/Machine/Operands.lean ====
section
/-! DEFINITION. The operand forms: the frame operand of TRANSMIT, the handle and register of a line, and the level a
call leaves. -/

namespace Sys2Proof.Machine

/-- The frame an operand denotes (R68), given what the last ENCODE returned; word literals go MSB first (R42). -/
def resolveFrame (returned : Option Frame) : FrameArg → Option Frame
  | .bits f => some f
  | .words ws => some (ws.flatMap bits32)
  | .returned => returned

/-- The register value of a level that a call set. -/
def levelReg : Level → LineLevel
  | .low => .low
  | .high => .high

/-- R113: the line register after a call that asked for `level`. -/
def lineAfter (level : Level) : Answer → LineLevel
  | .ok => levelReg level
  | .err _ => .unknown

/-- R113, R128: `handle(line)`. -/
def State.handleOf (s : State) : Line → Handle
  | .clock => s.clockLine
  | .data => s.dataLine

/-- R113 `line_reg(line)`. -/
def State.lineReg (s : State) : Line → LineLevel
  | .clock => s.clk
  | .data => s.dat

/-- R113 `line_reg(line) <- v`. -/
def State.putLine (s : State) (line : Line) (v : LineLevel) : State :=
  match line with
  | .clock => { s with clk := v }
  | .data => { s with dat := v }

end Sys2Proof.Machine
end

