-- ==== Sys2Proof/Machine/Flags.lean ====
section
/-! DEFINITION. The block's only status: the outcome of TRANSMIT and its numeric codes (R28, R140).  There are no
condition codes. -/

namespace Sys2Proof.Machine

/-- R140: the error taxonomy. -/
inductive ErrorName where
  | lineIOError
  /-- Named by the source and raised by nothing (R143). -/
  | invalidPixelCount
  deriving DecidableEq, Repr

/-- R140: the spec's codes of the errors. -/
def ErrorName.code : ErrorName → Nat
  | .lineIOError => 1
  | .invalidPixelCount => 2

/-- R140: the error a result reports. -/
def TxResult.errorName : TxResult → Option ErrorName
  | .ok => none
  | .err _ => some .lineIOError

/-- R28: the numeric code visible in `result`; 0 is `Ok`. -/
def TxResult.code (r : TxResult) : Nat :=
  match r.errorName with
  | none => 0
  | some n => n.code

end Sys2Proof.Machine
end

