-- ==== Sys2Proof/Machine/Ops.lean ====
section
/-! DEFINITION. The shared operations: the SetLevel primitive, the abort (the block's exception entry) and the return,
the phase check, reset, and what the block does next. -/

namespace Sys2Proof.Machine

/-- The collaborator's answer to the `k`-th coming call: the listed one, else the free value (R113). -/
def State.answerAt (s : State) (k : Nat) : Answer :=
  match s.answers[k]? with
  | some a => a
  | none => Config.freeAnswer (s.draws + k)

/-- The call is issued, answered and recorded; answers are used in issue order (R47). -/
def State.recordCall (s : State) (line : Line) (level : Level) (a : Answer) : State :=
  { s with
    trace := s.trace ++ [{ line := line, handle := s.handleOf line, level := level, answer := a }]
    answers := s.answers.tail
    draws := s.draws + 1 }

/-- R113: the state after one SetLevel call; its answer is `s.answerAt 0`. -/
def State.setLevel (s : State) (line : Line) (level : Level) : State :=
  (s.recordCall line level (s.answerAt 0)).putLine line (lineAfter level (s.answerAt 0))

/-- R8 `phase <- P`. -/
def State.goto (s : State) (p : Phase) : State := { s with phase := p }

/-- R145, abort entry: save the error, leave `i` and `fr`, go to restoration. -/
def State.abort (s : State) (bitIndex : Nat) (line : Line) (c : Cause) : State :=
  { s with pend := some { bitIndex := bitIndex, line := line, cause := c }, phase := .rstClk }

/-- R148, return with an outcome: the result is written and the next TRANSMIT can be accepted. -/
def State.finish (s : State) (r : TxResult) : State := { s with result := some r, phase := .idle }

/-- R119, R148: return with the pending error, which is then no longer pending. -/
def State.report (s : State) (e : LineIOError) : State :=
  { s with result := some (.err e), pend := none, phase := .idle }

/-- R114 to R117: a call of a bit-pair or of the tail.  On `Ok` go on, on `Err` abort with the error of bit-pair
`bitIndex` (R142). -/
def State.attempt (s : State) (line : Line) (level : Level) (bitIndex : Nat) (onOk : State → State) : State :=
  match s.answerAt 0 with
  | .ok => onOk (s.setLevel line level)
  | .err c => (s.setLevel line level).abort bitIndex line c

/-- R116: after the clock fell on bit-pair `i`, whose data bit is `b`. -/
def State.endBitPair (b : Bool) (s : State) : State :=
  if s.i + 1 < s.fr.length then { s with i := s.i + 1, phase := .data }
  else if b then s.goto .tail
  else s.finish .ok

/-- R27: a micro-step is the next action of exactly one phase. -/
def inPhase (p : Phase) (s : State) (act : Host.Outcome State Fault Refusal) : Host.Outcome State Fault Refusal :=
  if s.phase = p then act else .refused .outOfPhase

/-- R112, the start step of an accepted TRANSMIT; the handles are bound for the call (R128) and the observation of R123
begins. -/
def State.startTransmit (s : State) (f : Frame) (c d : Handle) : State :=
  { s with
    fr := f, i := 0, pend := none
    result := if f = [] then some .ok else none
    phase := if f = [] then .idle else .data
    clockLine := c, dataLine := d
    startClk := s.clk, startDat := s.dat, trace := [] }

/-- R160 to R162: the lines after a reset.  A reset during a transmission leaves them unknown; otherwise they are Low
exactly when the environment drove them Low. -/
def State.linesAfterReset (s : State) (linesLow : Bool) : LineLevel :=
  if s.phase = .idle ∧ linesLow = true then .low else .unknown

/-- R160, R161: reset of the block.  What the caller holds (`returned`) and the coming inputs are not the block's. -/
def State.resetBlock (s : State) (linesLow : Bool) : State :=
  { s with
    clk := s.linesAfterReset linesLow, dat := s.linesAfterReset linesLow
    phase := .idle, fr := [], i := 0, pend := none, result := none, words := []
    startClk := s.linesAfterReset linesLow, startDat := s.linesAfterReset linesLow, trace := [] }

/-- What the block does next when no event is due. -/
inductive Selection where
  /-- IDLE and no operation is called (R27). -/
  | wait
  /-- run `i` in the state `s` -/
  | run (i : Instr) (s : State)
  | stuck (f : Fault)
  deriving DecidableEq, Repr

/-- The caller's calls still to come. -/
def State.withCmds (s : State) (rest : List Instr) : State := { s with cmds := rest }

/-- R27: in IDLE the next operation the caller calls, else the micro-step of the phase. -/
def State.select (s : State) : Selection :=
  match s.phase with
  | .idle =>
    match s.cmds with
    | [] => .wait
    | c :: rest => .run c (s.withCmds rest)
  | .data =>
    match s.fr[s.i]? with
    | some b => .run (.drvData b) s
    | none => .stuck .noFrameBit
  | .clkHi => .run .drvClkRise s
  | .clkLo => .run .drvClkFall s
  | .tail => .run .drvTail s
  | .rstClk => .run .drvRstClk s
  | .rstDat => .run .drvRstDat s

/-- R66: the code of the call the driver issues next, in one byte; none in IDLE. -/
def State.nextCode (s : State) : Option Byte :=
  match s.phase with
  | .idle => none
  | .data => s.fr[s.i]?.map (fun b => codeByte (callCode .data (lvl b)))
  | .clkHi => some (codeByte (callCode .clock .high))
  | .clkLo => some (codeByte (callCode .clock .low))
  | .tail => some (codeByte (callCode .data .low))
  | .rstClk => some (codeByte (callCode .clock .low))
  | .rstDat => some (codeByte (callCode .data .low))

/-- The event that lands now, if one does, and the state without it. -/
def State.dueEvent (s : State) : Option (EventKind × State) :=
  match s.events with
  | [] => none
  | e :: rest => if e.after = 0 then some (e.kind, { s with events := rest }) else none

/-- One step of the block passes for the coming event. -/
def State.tickEvents (s : State) : State :=
  match s.events with
  | [] => s
  | e :: rest => { s with events := { e with after := e.after - 1 } :: rest }

/-- The frame position `i` numbers a bit-pair, as the bit-pair phases need (R26): kept if it does, else the one-bit frame
`b`.  Used only to place a micro-step (`State.place`). -/
def State.withBit (s : State) (b : Bool) : State :=
  match s.fr[s.i]? with
  | some b' => if b' = b then s else { s with fr := [b], i := 0 }
  | none => { s with fr := [b], i := 0 }

/-- The driver stands in phase `p` and no event is coming. -/
def State.placeIn (s : State) (p : Phase) : State := { s with phase := p, events := [] }

/-- The caller's next call is `i`, the block is idle and no event is coming. -/
def State.placeCall (s : State) (i : Instr) : State := { s with phase := .idle, events := [], cmds := i :: s.cmds }

/-- There is an error to report. -/
def State.withPend (s : State) : State :=
  { s with pend := some (s.pend.getD { bitIndex := 0, line := .clock, cause := Cause.base }) }

/-- The state whose very next step runs `i`: no event lands before it, the phase is the one that issues it, and an
operation is the caller's next call.  It stands for the caller's call and for the run that leads to a micro-step
(notes/assumptions/13.md). -/
def State.place (s : State) (i : Instr) : State :=
  match i with
  | .encode strip => s.placeCall (.encode strip)
  | .transmit f c d => s.placeCall (.transmit f c d)
  | .emitStart => s.placeCall .emitStart
  | .emitPixel p => s.placeCall (.emitPixel p)
  | .emitLatch n => s.placeCall (.emitLatch n)
  | .drvData b => (s.withBit b).placeIn .data
  | .drvClkRise => (s.withBit (s.fr[s.i]?.getD false)).placeIn .clkHi
  | .drvClkFall => (s.withBit (s.fr[s.i]?.getD false)).placeIn .clkLo
  | .drvTail => s.placeIn .tail
  | .drvRstClk => s.placeIn .rstClk
  | .drvRstDat => s.withPend.placeIn .rstDat

end Sys2Proof.Machine
end

