-- ==== Sys2Proof/Machine/Driver.lean ====
section
/-! DEFINITION. The line driver: TRANSMIT and its micro-steps (41_line_driver.md). -/

namespace Sys2Proof.Machine

/-- TRANSMIT, R110 to R112: accepted only in IDLE, on two distinct lines, with a frame that `W_IDX` bits can number
(R6, D5). -/
def execTransmit (f : FrameArg) (c d : Handle) (s : State) : Host.Outcome State Fault Refusal :=
  if s.phase ≠ .idle then .refused .transmitInProgress
  else if c = d then .refused .sameHandle
  else
    match resolveFrame s.returned f with
    | some bits => if s.params.acceptsFrame bits.length then .next (s.startTransmit bits c d) else .refused .frameTooLong
    | none => .refused .noEncodedFrame

/-- DRV_DATA, R114. -/
def execDrvData (b : Bool) (s : State) : Host.Outcome State Fault Refusal :=
  inPhase .data s
    (match s.fr[s.i]? with
    | none => .fault .noFrameBit
    | some b' => if b' = b then .next (s.attempt .data (lvl b) s.i (·.goto .clkHi)) else .refused .notTheFrameBit)

/-- DRV_CLK_RISE, R115. -/
def execDrvClkRise (s : State) : Host.Outcome State Fault Refusal :=
  inPhase .clkHi s (.next (s.attempt .clock .high s.i (·.goto .clkLo)))

/-- DRV_CLK_FALL, R116. -/
def execDrvClkFall (s : State) : Host.Outcome State Fault Refusal :=
  inPhase .clkLo s
    (match s.fr[s.i]? with
    | none => .fault .noFrameBit
    | some b => .next (s.attempt .clock .low s.i (State.endBitPair b)))

/-- DRV_TAIL, R117. -/
def execDrvTail (s : State) : Host.Outcome State Fault Refusal :=
  inPhase .tail s (.next (s.attempt .data .low (s.fr.length - 1) (·.finish .ok)))

/-- DRV_RST_CLK, R118: the outcome is ignored. -/
def execDrvRstClk (s : State) : Host.Outcome State Fault Refusal :=
  inPhase .rstClk s (.next ((s.setLevel .clock .low).goto .rstDat))

/-- DRV_RST_DAT, R119: the outcome is ignored and the first error is returned. -/
def execDrvRstDat (s : State) : Host.Outcome State Fault Refusal :=
  inPhase .rstDat s
    (match s.pend with
    | none => .fault .noPendingError
    | some e => .next ((s.setLevel .data .low).report e))

end Sys2Proof.Machine
end

