-- ==== Sys2Proof/Machine/Encoder.lean ====
section
/-! DEFINITION. The frame encoder: ENCODE and its three word emitters (40_frame_encoder.md). -/

namespace Sys2Proof.Machine

/-- R85. -/
def startWord : Word := 0x00000000#32

/-- R65, R86, by the arithmetic of the rule. -/
def pixelWord (p : Pixel) : Word :=
  BitVec.ofNat 32
    (0xE0000000 + maskField Config.briBits p.brightness * 2 ^ 24 + maskField Config.colBits p.blue * 2 ^ 16
      + maskField Config.colBits p.green * 2 ^ 8 + maskField Config.colBits p.red)

/-- R87. -/
def latchWords (n : Nat) : List Word := List.replicate (latchCount n) 0x00000000#32

/-- R83: the words of the frame of a strip, in the order of R43. -/
def frameWords (strip : Strip) : List Word :=
  startWord :: (strip.map pixelWord ++ latchWords strip.length)

/-- R83: `ENCODE(S)`, a pure function of the strip (R80). -/
def encodeFrame (strip : Strip) : Frame := (frameWords strip).flatMap bits32

/-- R82: `L(N)`. -/
def frameLength (n : Nat) : Nat := 32 * (1 + n + latchCount n)

/-- R84: bit `k` of the frame by the serializer's closed form. -/
def frameBit (strip : Strip) (k : Nat) : Bool :=
  if k < 32 then false
  else
    match strip[(k - 32) / 32]? with
    | some p => (pixelWord p).getLsbD (31 - (k - 32) % 32)
    | none => false

/-- ENCODE, R83: returns the frame to the caller and writes no state of the block.  A strip larger than `N_MAX` is
refused (R6, D4); at the default, unbounded, every strip has a frame (R95). -/
def execEncode (strip : Strip) (s : State) : Host.Outcome State Fault Refusal :=
  if s.params.acceptsStrip strip.length then .next { s with returned := some (encodeFrame strip) }
  else .refused .stripTooLong

/-- EMIT_START, R85: `words <- [EMIT_START()]` (R83). -/
def execEmitStart (s : State) : Host.Outcome State Fault Refusal :=
  .next { s with words := [startWord] }

/-- EMIT_PIXEL, R86: `words <- words ++ [EMIT_PIXEL(p)]` (R83). -/
def execEmitPixel (p : Pixel) (s : State) : Host.Outcome State Fault Refusal :=
  .next { s with words := s.words ++ [pixelWord p] }

/-- EMIT_LATCH, R87: `words <- words ++ EMIT_LATCH(N)` (R83). -/
def execEmitLatch (n : Nat) (s : State) : Host.Outcome State Fault Refusal :=
  .next { s with words := s.words ++ latchWords n }

end Sys2Proof.Machine
end

