-- ==== Sys2Proof/Machine/Dispatch.lean ====
section
/-! DEFINITION. One arm per constructor of Instr. -/

namespace Sys2Proof.Machine

def exec (i : Instr) (s : State) : Host.Outcome State Fault Refusal :=
  match i with
  | .encode strip => Sys2Proof.Machine.execEncode strip s
  | .transmit f c d => Sys2Proof.Machine.execTransmit f c d s
  | .emitStart => Sys2Proof.Machine.execEmitStart s
  | .emitPixel p => Sys2Proof.Machine.execEmitPixel p s
  | .emitLatch n => Sys2Proof.Machine.execEmitLatch n s
  | .drvData b => Sys2Proof.Machine.execDrvData b s
  | .drvClkRise => Sys2Proof.Machine.execDrvClkRise s
  | .drvClkFall => Sys2Proof.Machine.execDrvClkFall s
  | .drvTail => Sys2Proof.Machine.execDrvTail s
  | .drvRstClk => Sys2Proof.Machine.execDrvRstClk s
  | .drvRstDat => Sys2Proof.Machine.execDrvRstDat s

end Sys2Proof.Machine
end

