-- ==== Sys2Proof/Machine/Step.lean ====
section
/-! DEFINITION. One step of the machine: an event that is due, else the block's next action. -/

namespace Sys2Proof.Machine

/-- What a landing event does. -/
def takeEvent (e : EventKind) (s : State) : Host.Outcome State Fault Refusal :=
  match e with
  | .reset linesLow => .next (s.resetBlock linesLow)
  | .transmit f c d => exec (.transmit f c d) s

/-- The block's next action (R27). -/
def stepBlock (s : State) : Host.Outcome State Fault Refusal :=
  match s.select with
  | .wait => .next s
  | .run i t => exec i t
  | .stuck f => .fault f

/-- One step.  An event lands between two calls, never inside one (R46). -/
def step (s : State) : Host.Outcome State Fault Refusal :=
  match s.dueEvent with
  | some (e, t) => takeEvent e t
  | none => stepBlock s.tickEvents

/-- `s` with the instruction of a table word as the one its next step runs. -/
def State.withFetchWord (s : State) (nbits w : Nat) : State :=
  match decodeTableWord nbits w with
  | some i => s.place i
  | none => s

/-- `n` steps, stopping at the first fault or refusal. -/
def runFor : Nat → State → Host.Outcome State Fault Refusal
  | 0, s => .next s
  | n + 1, s =>
    match step s with
    | .next t => runFor n t
    | .fault f => .fault f
    | .refused r => .refused r

end Sys2Proof.Machine
end

