-- ==== Sys2Proof/Machine/Receiver.lean ====
section
/-! DEFINITION. What the wire carries: the observation of R123 on the recorded call trace. -/

namespace Sys2Proof.Machine

/-- R24, R123: the bits that sampling a line register can yield; an unknown level yields either. -/
def LineLevel.bits : LineLevel → List Bool
  | .low => [false]
  | .high => [true]
  | .unknown => [false, true]

/-- R113 on one register: what a call leaves in the register of `line`. -/
def Call.after (c : Call) (line : Line) (before : LineLevel) : LineLevel :=
  if c.line = line then lineAfter c.level c.answer else before

/-- R123 for one call: whether the receiver must, may or cannot sample.  After a failed clock-high call it may, whatever
`clk` was (DEDUCED, notes/assumptions/14.md). -/
inductive Sampling where
  | must
  | may
  | never
  deriving DecidableEq, Repr

/-- R123, the condition of each line of the walk. -/
def Call.sampling (c : Call) (clkBefore : LineLevel) : Sampling :=
  match c.line, c.level with
  | .clock, .high =>
    match c.answer, clkBefore with
    | .ok, .low => .must
    | .ok, .unknown => .may
    | .ok, .high => .never
    | .err _, _ => .may
  | _, _ => .never

/-- R123: every sequence of data bits that the receiver may sample from a call trace that starts with the line registers
`clk` and `dat`. -/
def sampleChoices (clk dat : LineLevel) : List Call → List (List Bool)
  | [] => [[]]
  | c :: cs =>
    let rest := sampleChoices (c.after .clock clk) (c.after .data dat) cs
    let taken := dat.bits.flatMap (fun b => rest.map (b :: ·))
    match c.sampling clk with
    | .must => taken
    | .may => taken ++ rest
    | .never => rest

/-- R123 applied to the TRANSMIT that `s` records. -/
def State.samples (s : State) : List (List Bool) := sampleChoices s.startClk s.startDat s.trace

end Sys2Proof.Machine
end

