-- ==== Sys2Proof/Safety.lean ====
section
/-! DEFINITION. What counts as a safe run, in the terms the statements use: the invariants, a returning TRANSMIT, and the
sequential form of R120. -/

namespace Sys2Proof.Machine

/-! ### Invariants -/

/-- The sequencer's registers agree with its phase (R26 to R28, R112 to R119): a bit-pair phase has a bit-pair and no
outcome yet, TAIL stands at a last bit 1, restoration has an error to report, and the two lines are distinct (R128). -/
def State.SequencerInv (s : State) : Prop :=
  s.clockLine ≠ s.dataLine ∧
    match s.phase with
    | .idle => s.pend = none
    | .data => s.i < s.fr.length ∧ s.pend = none ∧ s.result = none
    | .clkHi => s.i < s.fr.length ∧ s.pend = none ∧ s.result = none
    | .clkLo => s.i < s.fr.length ∧ s.pend = none ∧ s.result = none
    | .tail => s.i + 1 = s.fr.length ∧ s.fr[s.i]? = some true ∧ s.pend = none ∧ s.result = none
    | .rstClk => (∃ e, s.pend = some e ∧ e.bitIndex < s.fr.length) ∧ s.result = none
    | .rstDat => (∃ e, s.pend = some e ∧ e.bitIndex < s.fr.length) ∧ s.result = none

/-- The clock level before bit-pair `i` is processed: the level at the start for bit-pair 0 (no preamble, R112), and Low
after a completed bit-pair (R116). -/
def State.clkBeforeBit (s : State) : LineLevel := if s.i = 0 then s.startClk else .low

/-- What the line registers hold in each phase (R114 to R119). -/
def State.LinesAgree (s : State) : Prop :=
  match s.phase with
  | .idle => True
  | .data => s.clk = s.clkBeforeBit
  | .clkHi => s.clk = s.clkBeforeBit ∧ ∀ b, s.fr[s.i]? = some b → s.dat = levelReg (lvl b)
  | .clkLo => s.clk = .high ∧ ∀ b, s.fr[s.i]? = some b → s.dat = levelReg (lvl b)
  | .tail => s.clk = .low
  | .rstClk => True
  | .rstDat => s.clk = .low ∨ s.clk = .unknown

/-- R47: the line registers are what the recorded calls left, in issue order, from the levels at the start. -/
def State.LinesFollowTrace (s : State) : Prop :=
  s.clk = s.trace.foldl (fun v c => c.after .clock v) s.startClk ∧
    s.dat = s.trace.foldl (fun v c => c.after .data v) s.startDat

/-- R47, R125, R163: the invariant of the wire. -/
def State.WireInv (s : State) : Prop := s.SequencerInv ∧ s.LinesAgree ∧ s.LinesFollowTrace

/-- R6, R26, R141: every frame position that a register holds fits in `W_IDX` bits. -/
def State.IndexFits (s : State) : Prop :=
  s.params.acceptsFrame s.fr.length = true ∧
    ∀ w, s.params.wIdx = some w →
      s.i < 2 ^ w ∧ (∀ e, s.pend = some e → e.bitIndex < 2 ^ w) ∧ ∀ e, s.result = some (.err e) → e.bitIndex < 2 ^ w

/-! ### A TRANSMIT from its call to its return -/

/-- The operation that the coming step takes up in IDLE is a TRANSMIT: the event that lands, or with none due the
caller's next call. -/
def State.TakesTransmit (s : State) (a : FrameArg) (c d : Handle) : Prop :=
  s.phase = .idle ∧
    ((∃ es, s.events = { after := 0, kind := .transmit a c d } :: es) ∨
      (s.dueEvent = none ∧ ∃ rest, s.cmds = .transmit a c d :: rest))

/-- The coming step is a reset. -/
def State.TakesReset (s : State) : Prop := ∃ b es, s.events = { after := 0, kind := .reset b } :: es

/-- The caller's next call is an acceptable TRANSMIT of the frame `f`, and no event is coming. -/
def State.CallsTransmit (s : State) (f : Frame) (rest : List Instr) : Prop :=
  s.phase = .idle ∧ s.events = [] ∧ s.params.acceptsFrame f.length = true ∧
    ∃ a c d, s.cmds = .transmit a c d :: rest ∧ c ≠ d ∧ resolveFrame s.returned a = some f

/-- The run from `s` is back in IDLE for the first time after `n` steps, in `t` (R148). -/
def ReturnsAfter (n : Nat) (s t : State) : Prop :=
  runFor n s = .next t ∧ 0 < n ∧ t.phase = .idle ∧
    ∀ k u, 0 < k → k < n → runFor k s = .next u → u.phase ≠ .idle

/-- Calls of DRV_TAIL in a TRANSMIT whose calls all succeed: one when the last bit is 1 (R121). -/
def tailCalls (f : Frame) : Nat := if f.getLast? = some true then 1 else 0

/-- Calls of a TRANSMIT whose calls all succeed (R121). -/
def okCalls (f : Frame) : Nat := Config.callsPerBit * f.length + tailCalls f

/-! ### The sequential form of R120, written straight from its loop -/

/-- R120, the loop over the bits from position `k`: the error that ends it, if one does. -/
def seqBits (s : State) (k : Nat) : Frame → Option LineIOError × State
  | [] => (none, s)
  | b :: bs =>
    let s1 := s.setLevel .data (lvl b)
    match s.answerAt 0 with
    | .err c => (some { bitIndex := k, line := .data, cause := c }, s1)
    | .ok =>
      let s2 := s1.setLevel .clock .high
      match s1.answerAt 0 with
      | .err c => (some { bitIndex := k, line := .clock, cause := c }, s2)
      | .ok =>
        let s3 := s2.setLevel .clock .low
        match s2.answerAt 0 with
        | .err c => (some { bitIndex := k, line := .clock, cause := c }, s3)
        | .ok => seqBits s3 (k + 1) bs

/-- R120 `ABORT`. -/
def seqAbort (e : LineIOError) (s : State) : TxResult × State :=
  (.err e, (s.setLevel .clock .low).setLevel .data .low)

/-- R120 `TRANSMIT`. -/
def seqTransmit (s : State) (f : Frame) : TxResult × State :=
  match seqBits s 0 f with
  | (some e, t) => seqAbort e t
  | (none, t) =>
    if f.getLast? = some true then
      match t.answerAt 0 with
      | .ok => (.ok, t.setLevel .data .low)
      | .err c => seqAbort { bitIndex := f.length - 1, line := .data, cause := c } (t.setLevel .data .low)
    else (.ok, t)

end Sys2Proof.Machine
end

