-- ==== Sys2Proof/Certificates/Slice0/Obligations.lean ====
section
/-! DEFINITION. The statements for the provers, one per rule or group of rules of spec/. -/

open Sys2Proof Sys2Proof.Machine

/-! ### The frame encoder -/

/-- R81: the latch is the source's minimum taken exactly, in every form the rule gives it, and EMIT_LATCH appends it. -/
def Obligations.LatchIsExactlyTheMinimum : Prop :=
  ∀ n : Nat,
    latchCount n = max 1 ((n + 63) / 64) ∧
    latchCount n = max 1 (((n + 1) / 2 + 31) / 32) ∧
    (n ≤ 64 → latchCount n = 1) ∧
    (∀ m, 1 ≤ m → 64 * (m - 1) + 1 ≤ n → n ≤ 64 * m → latchCount n = m) ∧
    ∀ s : State, exec (.emitLatch n) s =
      .next { s with words := s.words ++ List.replicate (max 1 ((n + 63) / 64)) 0x00000000#32 }

/-- R82: the length of the frame ENCODE returns, for every strip up to `N_MAX`. -/
def Obligations.EncodedFrameLength : Prop :=
  ∀ (strip : Strip) (s : State), s.params.acceptsStrip strip.length = true → ∃ f,
    exec (.encode strip) s = .next { s with returned := some f } ∧
    f.length = 32 * (1 + strip.length + max 1 ((strip.length + 63) / 64)) ∧
    f.length % 32 = 0 ∧ 64 ≤ f.length

/-- R80, R83: ENCODE answers a next state for every strip up to `N_MAX` (every strip at all at the default) and every
field value, returns the frame of R83 written out, and changes nothing else. -/
def Obligations.EncodeReturnsTheFrame : Prop :=
  ∀ (strip : Strip) (s : State), s.params.acceptsStrip strip.length = true →
    exec (.encode strip) s = .next
      { s with
        returned := some
          ((0x00000000#32 ::
            (strip.map (fun p => BitVec.ofNat 32
              (0xE0000000 + p.brightness % 32 * 2 ^ 24 + p.blue % 256 * 2 ^ 16 + p.green % 256 * 2 ^ 8 + p.red % 256)) ++
            List.replicate (max 1 ((strip.length + 63) / 64)) 0x00000000#32)).flatMap
          (fun w => (List.range 32).map (fun k => w.getLsbD (31 - k)))) }

/-- The serializer's closed form is the frame of R83, bit for bit (R84, which the spec marks derived). -/
def Obligations.FrameBitClosedForm : Prop :=
  ∀ (strip : Strip) (k : Nat), k < frameLength strip.length → (encodeFrame strip)[k]? = some (frameBit strip k)

/-- R83: the caller's program EMIT_START, EMIT_PIXEL of each pixel in strip order, EMIT_LATCH runs to its end and leaves
the words of ENCODE's frame, whatever words stood before.  That a program may call the emitters is the model's choice
(notes/assumptions/13.md). -/
def Obligations.EmittersBuildTheEncodedFrame : Prop :=
  ∀ (strip : Strip) (s : State) (rest : List Instr), s.phase = .idle → s.events = [] →
    s.cmds = (.emitStart :: (strip.map Instr.emitPixel ++ [.emitLatch strip.length])) ++ rest →
    ∃ ws, runFor (strip.length + 2) s = .next { s with cmds := rest, words := ws } ∧
      (s.params.acceptsStrip strip.length = true →
        exec (.encode strip) s = .next { s with returned := some (ws.flatMap bits32) })

/-- R85, R61: EMIT_START gives the zero word, which stands exactly once in every frame, the empty strip's too: first,
with pixel words and the latch after it; and the first 32 bits of a frame are 0. -/
def Obligations.EmitStartGivesTheZeroWord : Prop :=
  (∀ s : State, exec .emitStart s = .next { s with words := [0x00000000#32] }) ∧
  ∀ strip : Strip, frameWords strip = 0x00000000#32 :: (strip.map pixelWord ++ latchWords strip.length) ∧
    encodeFrame strip = (frameWords strip).flatMap bits32 ∧
    (∀ k p, strip[k]? = some p → (frameWords strip)[k + 1]? ≠ some 0x00000000#32) ∧
    (encodeFrame strip).take 32 = List.replicate 32 false

/-- R86: EMIT_PIXEL appends the pixel word; the header `111` is there whatever the input. -/
def Obligations.EmitPixelGivesThePixelWord : Prop :=
  (∀ (p : Pixel) (s : State), exec (.emitPixel p) s = .next
    { s with
      words := s.words ++ [BitVec.ofNat 32
        (0xE0000000 + p.brightness % 32 * 2 ^ 24 + p.blue % 256 * 2 ^ 16 + p.green % 256 * 2 ^ 8 + p.red % 256)] }) ∧
  (∀ p : Pixel, (pixelWord p).extractLsb' 29 3 = 0b111#3) ∧
  pixelWord { brightness := 0, red := 0, green := 0, blue := 0 } = 0xE0000000#32 ∧
  pixelWord { brightness := 31, red := 255, green := 255, blue := 255 } = 0xFFFFFFFF#32 ∧
  pixelWord { brightness := 1, red := 0x12, green := 0x34, blue := 0x56 } = 0xE1563412#32 ∧
  ∀ p : Pixel, (pixelWord { p with brightness := 32 }).extractLsb' 24 5 = 0#5

/-- R87: EMIT_LATCH appends `W_latch(N)` zero words, never fewer than one, and the count steps from 1 to 2 between 64
and 65. -/
def Obligations.EmitLatchGivesZeroWords : Prop :=
  ∀ (n : Nat) (s : State), ∃ m,
    exec (.emitLatch n) s = .next { s with words := s.words ++ List.replicate m 0x00000000#32 } ∧
    m = max 1 ((n + 63) / 64) ∧ 1 ≤ m ∧ (n ≤ 64 → m = 1) ∧ (n = 65 → m = 2)

/-- R62, R65, R90: the fields of the pixel word EMIT_PIXEL appends, its packing both as a layout of bits and as a sum,
and its range.  Each field depends on its own input only. -/
def Obligations.PixelWordFields : Prop :=
  ∀ p : Pixel,
    (pixelWord p).extractLsb' 29 3 = 0b111#3 ∧
    (pixelWord p).extractLsb' 24 5 = BitVec.ofNat 5 (p.brightness % 32) ∧
    (pixelWord p).extractLsb' 16 8 = BitVec.ofNat 8 (p.blue % 256) ∧
    (pixelWord p).extractLsb' 8 8 = BitVec.ofNat 8 (p.green % 256) ∧
    (pixelWord p).extractLsb' 0 8 = BitVec.ofNat 8 (p.red % 256) ∧
    pixelWordLayout p = pixelWord p ∧
    (pixelWord p).toNat =
      0xE0000000 + p.brightness % 32 * 2 ^ 24 + p.blue % 256 * 2 ^ 16 + p.green % 256 * 2 ^ 8 + p.red % 256 ∧
    0xE0000000 ≤ (pixelWord p).toNat

/-- R91, which the spec marks derived in part, and R64: equal strips, and strips equal after masking, have identical
frames; and frames tell apart every two strips that masking does not make equal. -/
def Obligations.FramesAgreeExactlyUpToMasking : Prop :=
  ∀ (a b : Strip),
    (a.map Pixel.masked = b.map Pixel.masked →
      encodeFrame a = encodeFrame b ∧ ∀ s, exec (.encode a) s = exec (.encode b) s) ∧
    (encodeFrame a = encodeFrame b → a.map Pixel.masked = b.map Pixel.masked)

/-- R88, R89: the empty strip, which every `N_MAX` admits, and the single pixel. -/
def Obligations.ShortStrips : Prop :=
  (∀ s : State, exec (.encode []) s = .next { s with returned := some (List.replicate 64 false) }) ∧
  ∀ (p : Pixel) (s : State), s.params.acceptsStrip 1 = true →
    exec (.encode [p]) s = .next
      { s with returned := some (List.replicate 32 false ++ bits32 (pixelWord p) ++ List.replicate 32 false) }

/-- R93, which the spec marks derived: the round trip through the test-only decoder recovers the masked pixels, for
every strip. -/
def Obligations.DecodeRecoversMaskedStrip : Prop :=
  ∀ strip : Strip, decodeFrame (encodeFrame strip) = some (strip.map (fun p =>
    { brightness := p.brightness % 32, red := p.red % 256, green := p.green % 256, blue := p.blue % 256 }))

/-- R92, D19: the test-only decoder rejects every frame that ENCODE cannot make. -/
def Obligations.DecodeAcceptsOnlyEncodedFrames : Prop :=
  ∀ (f : Frame) (strip : Strip), decodeFrame f = some strip →
    encodeFrame strip = f ∧
    ∀ p ∈ strip, p.brightness < 32 ∧ p.red < 256 ∧ p.green < 256 ∧ p.blue < 256

/-- R60, R67: a frame is START, then one PIXEL word per pixel, then LATCH words; no other word is ever emitted, and
every PIXEL pattern is. -/
def Obligations.EveryWordIsStartPixelOrLatch : Prop :=
  (∀ strip : Strip,
    (∀ k w, (frameWords strip)[k]? = some w →
      if k = 0 ∨ strip.length < k then w = 0x00000000#32 else isPixelWord w = true) ∧
    encodeFrame strip = (frameWords strip).flatMap bits32 ∧
    (frameWords strip).length = 1 + strip.length + max 1 ((strip.length + 63) / 64)) ∧
  ∀ w : Word, isPixelWord w = true ↔ ∃ p : Pixel, pixelWord p = w

/-! ### Encoding of instructions -/

/-- R61 to R66: decoding the encoding of an instruction, at its place, gives it back with its masked fields and leaves
the bytes after it; a pixel word decodes after any number of pixels. -/
def Obligations.DecodeInvertsEncode : Prop :=
  (∀ (i : Instr) (ctx : Context) (bytes rest : List Byte), contextOf i = some ctx → encode i = some bytes →
    decode ctx (bytes ++ rest) = .ok i.masked rest) ∧
  (∀ (p : Pixel) (n : Nat) (rest : List Byte), ∃ bytes, encode (.emitPixel p) = some bytes ∧
    decode (.frameBody n) (bytes ++ rest) = .ok (.emitPixel p.masked) rest) ∧
  ∀ p : Pixel, p.brightness < 32 → p.red < 256 → p.green < 256 → p.blue < 256 →
    (Instr.emitPixel p).masked = .emitPixel p

/-- R27, R66, R67: the decoder accepts nothing but the encoding of the instruction it answers, at that instruction's
place. -/
def Obligations.DecodeAcceptsOnlyEncodings : Prop :=
  ∀ (ctx : Context) (bytes rest : List Byte) (i : Instr), decode ctx bytes = .ok i rest →
    ∃ code, encode i = some code ∧ bytes = code ++ rest ∧
      (contextOf i = some ctx ∨ ∃ p n, i = .emitPixel p ∧ ctx = .frameBody n)

/-- R62, R66: words written out from the tables decode to what they stand for. -/
def Obligations.WrittenOutWordsDecode : Prop :=
  decode .frameStart [0x00#8, 0x00#8, 0x00#8, 0x00#8] = .ok .emitStart [] ∧
  decode (.frameBody 0) [0b11110000#8, 0b00100000#8, 0b01000000#8, 0b10000000#8] =
    .ok (.emitPixel { brightness := 16, red := 0x80, green := 0x40, blue := 0x20 }) [] ∧
  decode (.frameBody 1) [0x00#8, 0x00#8, 0x00#8, 0x00#8] = .ok (.emitLatch 1) [] ∧
  decode (.frameBody 1) [0x12#8, 0x34#8, 0x56#8, 0x78#8] = .reject .neverEmitted ∧
  decode (.call .data) [0b11#8] = .ok (.drvData true) [] ∧
  decode (.call .clkHi) [0b01#8] = .ok .drvClkRise [] ∧
  decode (.call .clkLo) [0b00#8] = .ok .drvClkFall [] ∧
  decode (.call .rstDat) [0b10#8] = .ok .drvRstDat [] ∧
  decode (.call .idle) [0b00#8] = .reject .notThisPhase

/-- R66, R113, R46: a micro-step that completes has issued exactly one call, the one its code names, on the handle of
its line, and has consumed exactly the coming answer. -/
def Obligations.MicroStepIssuesTheCallItsCodeNames : Prop :=
  ∀ (i : Instr) (ph : Phase) (s t : State), contextOf i = some (.call ph) → exec i s = .next t →
    ∃ line level, encode i = some [codeByte (callCode line level)] ∧
      t.trace = s.trace ++
        [{ line := line, handle := if line = .clock then s.clockLine else s.dataLine, level := level,
           answer := s.answerAt 0 }] ∧
      t.draws = s.draws + 1 ∧ ∀ k, t.answerAt k = s.answerAt (k + 1)

/-! ### TRANSMIT and its micro-steps -/

/-- R112, R111, R128: an accepted TRANSMIT on two distinct lines, for every form of its frame operand (R68).  That the
operand has these three forms is the model's choice (notes/assumptions/8.md); a frame that `W_IDX` bits cannot number is
in OpenBoundsAreArguments (notes/assumptions/2.md). -/
def Obligations.TransmitStarts : Prop :=
  ∀ (a : FrameArg) (f : Frame) (c d : Handle) (s : State), s.phase = .idle → c ≠ d →
    (a = .bits f ∨ (∃ ws, a = .words ws ∧ f = ws.flatMap bits32) ∨ (a = .returned ∧ s.returned = some f)) →
    s.params.acceptsFrame f.length = true →
    (f = [] → exec (.transmit a c d) s = .next
      { s with
        fr := [], i := 0, pend := none, result := some .ok, phase := .idle
        clockLine := c, dataLine := d, startClk := s.clk, startDat := s.dat, trace := [] }) ∧
    (f ≠ [] → exec (.transmit a c d) s = .next
      { s with
        fr := f, i := 0, pend := none, result := none, phase := .data
        clockLine := c, dataLine := d, startClk := s.clk, startDat := s.dat, trace := [] })

/-- R111: a TRANSMIT issued while another is in progress is refused, whether a program runs it or an event lands it. -/
def Obligations.SecondTransmitIsRefused : Prop :=
  ∀ (a : FrameArg) (c d : Handle) (s : State), s.phase ≠ .idle →
    exec (.transmit a c d) s = .refused .transmitInProgress ∧
    ∀ es, s.events = { after := 0, kind := .transmit a c d } :: es → step s = .refused .transmitInProgress

/-- D30: the same handle passed as clock and data is refused.  That a TRANSMIT of ENCODE's frame before any ENCODE is
refused is the model's choice (notes/assumptions/9.md). -/
def Obligations.UnusableOperandsAreRefused : Prop :=
  (∀ (a : FrameArg) (c : Handle) (s : State), s.phase = .idle →
    exec (.transmit a c c) s = .refused .sameHandle) ∧
  ∀ (c d : Handle) (s : State), s.phase = .idle → c ≠ d → s.returned = none →
    exec (.transmit .returned c d) s = .refused .noEncodedFrame

/-- R113: the effect of one call on the line registers, for each answer, and on nothing else of the block. -/
def Obligations.SetLevelSetsItsLine : Prop :=
  ∀ (s : State) (level : Level),
    (s.answerAt 0 = .ok →
      (s.setLevel .clock level).clk = (if level = .high then .high else .low) ∧
      (s.setLevel .data level).dat = (if level = .high then .high else .low)) ∧
    (∀ c, s.answerAt 0 = .err c → (s.setLevel .clock level).clk = .unknown ∧ (s.setLevel .data level).dat = .unknown) ∧
    (s.setLevel .clock level).dat = s.dat ∧ (s.setLevel .data level).clk = s.clk ∧
    ∀ line, (s.setLevel line level).phase = s.phase ∧ (s.setLevel line level).fr = s.fr ∧
      (s.setLevel line level).i = s.i ∧ (s.setLevel line level).pend = s.pend ∧
      (s.setLevel line level).result = s.result

/-- R114: DRV_DATA for both answers, whatever the data line held; and the clock is Low when it is issued in a run that
started with the clock Low. -/
def Obligations.DrvDataPutsTheBit : Prop :=
  ∀ (s : State) (b : Bool), s.phase = .data → s.fr[s.i]? = some b →
    (s.answerAt 0 = .ok → exec (.drvData b) s = .next
      { s with
        dat := if b then .high else .low
        phase := .clkHi
        trace := s.trace ++ [{ line := .data, handle := s.dataLine, level := if b then .high else .low, answer := .ok }]
        answers := s.answers.tail, draws := s.draws + 1 }) ∧
    (∀ c, s.answerAt 0 = .err c → exec (.drvData b) s = .next
      { s with
        dat := .unknown
        phase := .rstClk
        pend := some { bitIndex := s.i, line := .data, cause := c }
        trace := s.trace ++
          [{ line := .data, handle := s.dataLine, level := if b then .high else .low, answer := .err c }]
        answers := s.answers.tail, draws := s.draws + 1 }) ∧
    (s.WireInv → s.startClk = .low → s.clk = .low)

/-- R115: DRV_CLK_RISE for both answers; the data line already holds the bit, and the receiver samples it if the clock
was Low, or after a failed call may have seen the edge or not. -/
def Obligations.DrvClkRiseRaisesTheClock : Prop :=
  ∀ (s : State), s.phase = .clkHi →
    (s.answerAt 0 = .ok → exec .drvClkRise s = .next
      { s with
        clk := .high
        phase := .clkLo
        trace := s.trace ++ [{ line := .clock, handle := s.clockLine, level := .high, answer := .ok }]
        answers := s.answers.tail, draws := s.draws + 1 }) ∧
    (∀ c, s.answerAt 0 = .err c → exec .drvClkRise s = .next
      { s with
        clk := .unknown
        phase := .rstClk
        pend := some { bitIndex := s.i, line := .clock, cause := c }
        trace := s.trace ++ [{ line := .clock, handle := s.clockLine, level := .high, answer := .err c }]
        answers := s.answers.tail, draws := s.draws + 1 }) ∧
    (s.WireInv → ∀ b, s.fr[s.i]? = some b → s.dat = if b then .high else .low) ∧
    (s.WireInv → ∀ b, s.fr[s.i]? = some b →
      (s.clk = .low → sampleChoices s.clk s.dat
        [{ line := .clock, handle := s.clockLine, level := .high, answer := .ok }] = [[b]]) ∧
      ∀ c, sampleChoices s.clk s.dat
        [{ line := .clock, handle := s.clockLine, level := .high, answer := .err c }] = [[b], []])

/-- R116: DRV_CLK_FALL for both answers and the three successors of a bit-pair; an ENCODE frame never goes to TAIL. -/
def Obligations.DrvClkFallEndsTheBitPair : Prop :=
  ∀ (s : State) (b : Bool), s.phase = .clkLo → s.fr[s.i]? = some b →
    (s.answerAt 0 = .ok → ∃ t, exec .drvClkFall s = .next t ∧
      (s.i + 1 < s.fr.length → t.i = s.i + 1 ∧ t.phase = .data ∧ t.result = s.result) ∧
      (¬ s.i + 1 < s.fr.length → b = true → t.i = s.i ∧ t.phase = .tail ∧ t.result = s.result) ∧
      (¬ s.i + 1 < s.fr.length → b = false → t.i = s.i ∧ t.phase = .idle ∧ t.result = some .ok) ∧
      t = { s with
        clk := .low
        i := t.i, phase := t.phase, result := t.result
        trace := s.trace ++ [{ line := .clock, handle := s.clockLine, level := .low, answer := .ok }]
        answers := s.answers.tail, draws := s.draws + 1 }) ∧
    (∀ c, s.answerAt 0 = .err c → exec .drvClkFall s = .next
      { s with
        clk := .unknown
        phase := .rstClk
        pend := some { bitIndex := s.i, line := .clock, cause := c }
        trace := s.trace ++ [{ line := .clock, handle := s.clockLine, level := .low, answer := .err c }]
        answers := s.answers.tail, draws := s.draws + 1 }) ∧
    (∀ strip t, s.fr = encodeFrame strip → exec .drvClkFall s = .next t → t.phase ≠ .tail)

/-- R117: DRV_TAIL for both answers; its failure is attributed to the last bit-pair. -/
def Obligations.DrvTailReturnsDataLow : Prop :=
  ∀ (s : State), s.phase = .tail →
    (s.answerAt 0 = .ok → exec .drvTail s = .next
      { s with
        dat := .low
        phase := .idle
        result := some .ok
        trace := s.trace ++ [{ line := .data, handle := s.dataLine, level := .low, answer := .ok }]
        answers := s.answers.tail, draws := s.draws + 1 }) ∧
    (∀ c, s.answerAt 0 = .err c → exec .drvTail s = .next
      { s with
        dat := .unknown
        phase := .rstClk
        pend := some { bitIndex := s.fr.length - 1, line := .data, cause := c }
        trace := s.trace ++ [{ line := .data, handle := s.dataLine, level := .low, answer := .err c }]
        answers := s.answers.tail, draws := s.draws + 1 })

/-- R118: DRV_RST_CLK goes on whatever the answer; the clock is Low or Unknown after it. -/
def Obligations.DrvRstClkIgnoresItsOutcome : Prop :=
  ∀ (s : State), s.phase = .rstClk →
    exec .drvRstClk s = .next
      { s with
        clk := if s.answerAt 0 = .ok then .low else .unknown
        phase := .rstDat
        trace := s.trace ++ [{ line := .clock, handle := s.clockLine, level := .low, answer := s.answerAt 0 }]
        answers := s.answers.tail, draws := s.draws + 1 }

/-- R119: DRV_RST_DAT reports the pending error whatever the answer. -/
def Obligations.DrvRstDatReportsTheError : Prop :=
  ∀ (s : State) (e : LineIOError), s.phase = .rstDat → s.pend = some e →
    exec .drvRstDat s = .next
      { s with
        dat := if s.answerAt 0 = .ok then .low else .unknown
        phase := .idle
        result := some (.err e)
        pend := none
        trace := s.trace ++ [{ line := .data, handle := s.dataLine, level := .low, answer := s.answerAt 0 }]
        answers := s.answers.tail, draws := s.draws + 1 }

/-- R27: a micro-step outside its phase is refused.  The refusal is the model's choice (notes/assumptions/13.md). -/
def Obligations.MicroStepOutsideItsPhaseIsRefused : Prop :=
  ∀ (i : Instr) (ph : Phase) (s : State), contextOf i = some (.call ph) → s.phase ≠ ph →
    exec i s = .refused .outOfPhase

/-- R26: which operation can change which register; every other operation leaves it as it was. -/
def Obligations.RegistersHaveTheirWriters : Prop :=
  ∀ (i : Instr) (s t : State), exec i s = .next t →
    (t.clk ≠ s.clk → i = .drvClkRise ∨ i = .drvClkFall ∨ i = .drvRstClk) ∧
    (t.dat ≠ s.dat → (∃ b, i = .drvData b) ∨ i = .drvTail ∨ i = .drvRstDat) ∧
    (t.fr ≠ s.fr → ∃ a c d, i = .transmit a c d) ∧
    (t.i ≠ s.i → (∃ a c d, i = .transmit a c d) ∨ i = .drvClkFall) ∧
    (t.pend ≠ s.pend → (∃ a c d, i = .transmit a c d) ∨ ∃ ph, contextOf i = some (.call ph) ∧ ph ≠ .rstClk) ∧
    (t.result ≠ s.result →
      (∃ a c d, i = .transmit a c d) ∨ i = .drvClkFall ∨ i = .drvTail ∨ i = .drvRstDat) ∧
    (t.phase ≠ s.phase → (∃ a c d, i = .transmit a c d) ∨ ∃ ph, contextOf i = some (.call ph)) ∧
    t.cmds = s.cmds ∧ t.events = s.events ∧ t.params = s.params

/-! ### The step -/

/-- R27: with no event due, a step runs what the driver's call code decodes to in its phase, or in IDLE the caller's
next operation, or waits; the coming event draws one step nearer. -/
def Obligations.StepRunsTheDecodedInstruction : Prop :=
  ∀ (s u : State),
    ((s.events = [] ∧ u = s) ∨
      ∃ n k es, s.events = { after := n + 1, kind := k } :: es ∧
        u = { s with events := { after := n, kind := k } :: es }) →
    (∀ code i rest, s.nextCode = some code → decode (.call s.phase) (code :: rest) = .ok i rest → step s = exec i u) ∧
    (∀ i rest, s.phase = .idle → s.cmds = i :: rest → step s = exec i { u with cmds := rest }) ∧
    (s.phase = .idle → s.cmds = [] → step s = .next u)

/-- The driver's call code always decodes in its phase, so the statement before is about every phase but IDLE. -/
def Obligations.NextCallCodeDecodes : Prop :=
  ∀ (s : State), s.SequencerInv → s.phase ≠ .idle →
    ∃ code i, s.nextCode = some code ∧ contextOf i = some (.call s.phase) ∧
      ∀ rest, decode (.call s.phase) (code :: rest) = .ok i rest

/-- Placing a table word makes the very next step run its instruction, and that step answers a next state, from any
state.  How the word is placed is the model's choice (notes/assumptions/13.md). -/
def Obligations.PlacedWordRunsNext : Prop :=
  ∀ (s u : State) (nbits w : Nat) (i : Instr), decodeTableWord nbits w = some i → u = s.withFetchWord nbits w →
    step u = exec i { u with cmds := s.cmds } ∧ ∃ t, step u = .next t

/-- R160 to R162, which the spec calls its own, and the form of the event (notes/assumptions/15.md): a reset that lands,
in IDLE and during a transmission; it issues no call. -/
def Obligations.ResetEvent : Prop :=
  ∀ (s : State) (linesLow : Bool) (es : List Event), s.events = { after := 0, kind := .reset linesLow } :: es →
    ∃ t, step s = .next t ∧
      t.phase = .idle ∧ t.fr = [] ∧ t.i = 0 ∧ t.pend = none ∧ t.result = none ∧
      (s.phase = .idle → linesLow = true → t.clk = .low ∧ t.dat = .low) ∧
      (s.phase = .idle → linesLow = false → t.clk = .unknown ∧ t.dat = .unknown) ∧
      (s.phase ≠ .idle → t.clk = .unknown ∧ t.dat = .unknown) ∧
      t.trace = [] ∧ t.answers = s.answers ∧ t.draws = s.draws ∧
      t.cmds = s.cmds ∧ t.returned = s.returned ∧ t.events = es ∧ t.params = s.params

/-- R30: the reset value of every register the spec gives the block. -/
def Obligations.ResetValues : Prop :=
  State.reset.clk = .low ∧ State.reset.dat = .low ∧ State.reset.phase = .idle ∧ State.reset.fr = [] ∧
    State.reset.i = 0 ∧ State.reset.pend = none ∧ State.reset.result = none

/-- Reset meets both invariants; that the two handles are distinct there is the model's choice
(notes/assumptions/12.md). -/
def Obligations.ResetMeetsTheInvariants : Prop := State.reset.WireInv

/-- R26 to R28, R112 to R119: every step, micro-step, operation, event or wait, keeps the sequencer's registers in
agreement with its phase. -/
def Obligations.StepKeepsTheSequencerInvariant : Prop :=
  ∀ s t : State, s.SequencerInv → step s = .next t → t.SequencerInv

/-- R47, R125, R163: every step keeps the invariant of the wire: the line registers are what the recorded calls left,
and in each phase they hold what the rules say. -/
def Obligations.StepKeepsTheWireInvariant : Prop :=
  ∀ s t : State, s.WireInv → step s = .next t → t.WireInv

/-- Under the invariant no step faults, and with no event due every phase but IDLE steps on. -/
def Obligations.SequencerStepsNeverFault : Prop :=
  ∀ s : State, s.SequencerInv →
    (∀ f, step s ≠ .fault f) ∧
    (s.phase ≠ .idle → s.dueEvent = none → ∃ t, step s = .next t)

/-- R125, which the spec marks derived: a data call is issued while the clock is Low, or in RST_DAT while it is
Unknown, in a run that started with the clock Low. -/
def Obligations.DataMovesOnlyWhileTheClockIsLow : Prop :=
  ∀ (s t : State) (c : Call), s.WireInv → s.startClk = .low → s.phase ≠ .idle → s.dueEvent = none →
    step s = .next t → t.trace = s.trace ++ [c] → c.line = .data →
    s.clk = .low ∨ (s.phase = .rstDat ∧ s.clk = .unknown)

/-- R49, R165: from its start to its return a TRANSMIT keeps the latched frame and its line handles; only a reset ends
that. -/
def Obligations.FrameIsFixedDuringTransmit : Prop :=
  ∀ (s t : State), s.phase ≠ .idle → step s = .next t →
    (t.fr = s.fr ∧ t.clockLine = s.clockLine ∧ t.dataLine = s.dataLine ∧ (t.i = s.i ∨ t.i = s.i + 1)) ∨
    ∃ b es, s.events = { after := 0, kind := .reset b } :: es

/-- R28, R112: `result` is written only on a return, out of a busy phase to IDLE or at once by an accepted TRANSMIT of
the empty frame; it changes to none only at an accepted TRANSMIT of another frame or at a reset.  Every return writes an
outcome. -/
def Obligations.ResultIsWrittenOnReturn : Prop :=
  ∀ (s t : State), step s = .next t →
    (t.result ≠ s.result →
      (t.result ≠ none ∧ s.phase ≠ .idle ∧ t.phase = .idle ∧ ¬ s.TakesReset) ∨
      (t.result = some .ok ∧ t.phase = .idle ∧ t.fr = [] ∧
        ∃ a c d, s.TakesTransmit a c d ∧ c ≠ d ∧ resolveFrame s.returned a = some []) ∨
      (t.result = none ∧
        (s.TakesReset ∨ ∃ a c d f, s.TakesTransmit a c d ∧ c ≠ d ∧ f ≠ [] ∧ resolveFrame s.returned a = some f))) ∧
    (s.phase ≠ .idle → t.phase = .idle → ¬ s.TakesReset → t.result ≠ none)

/-- R140, R143: the codes of the outcomes, and InvalidPixelCount is in no result. -/
def Obligations.ResultCodes : Prop :=
  TxResult.code .ok = 0 ∧ (∀ e, TxResult.code (.err e) = 1) ∧ ErrorName.code .invalidPixelCount = 2 ∧
    ∀ r : TxResult, r.errorName ≠ some .invalidPixelCount

/-! ### Errors, restoration and return -/

/-- R145, R142: a failed call of a bit-pair or of the tail saves the error of the bit-pair at `i` and the line that
failed, leaves `i` and `fr`, and goes to restoration, in the same step. -/
def Obligations.FailedCallEntersRestoration : Prop :=
  ∀ (s : State) (c : Cause), s.SequencerInv → s.dueEvent = none → s.answerAt 0 = .err c →
    s.phase = .data ∨ s.phase = .clkHi ∨ s.phase = .clkLo ∨ s.phase = .tail →
    ∃ t, step s = .next t ∧ t.phase = .rstClk ∧
      t.pend = some
        { bitIndex := s.i, line := if s.phase = .data ∨ s.phase = .tail then .data else .clock, cause := c } ∧
      t.i = s.i ∧ t.fr = s.fr ∧ t.result = s.result

/-- R146, R147, R119: restoration issues clock Low and then data Low, both whatever their answers, and returns the first
error; a line is Low if its call succeeded and Unknown otherwise. -/
def Obligations.RestorationReturnsTheFirstError : Prop :=
  ∀ (s : State) (e : LineIOError), s.phase = .rstClk → s.events = [] → s.pend = some e →
    ∃ t, runFor 2 s = .next t ∧ t.phase = .idle ∧ t.result = some (.err e) ∧ t.pend = none ∧
      t.trace = s.trace ++
        [{ line := .clock, handle := s.clockLine, level := .low, answer := s.answerAt 0 },
         { line := .data, handle := s.dataLine, level := .low, answer := s.answerAt 1 }] ∧
      t.clk = (if s.answerAt 0 = .ok then .low else .unknown) ∧
      t.dat = (if s.answerAt 1 = .ok then .low else .unknown)

/-- R126, which the spec marks derived: when TRANSMIT returns. After `Ok` of a non-empty frame both lines are Low; the
empty frame leaves them; after `Err` each is Low or Unknown as its restoration call, one of the last two of the trace,
was answered. -/
def Obligations.IdleLinesAtReturn : Prop :=
  (∀ s t : State, s.WireInv → s.phase ≠ .idle → s.dueEvent = none → step s = .next t → t.phase = .idle →
    (t.result = some .ok ∧ t.clk = .low ∧ t.dat = .low) ∨
    ∃ e, t.result = some (.err e)) ∧
  (∀ (s : State) (a : FrameArg) (c d : Handle), s.phase = .idle → c ≠ d → resolveFrame s.returned a = some [] →
    ∃ t, exec (.transmit a c d) s = .next t ∧ t.result = some .ok ∧ t.clk = s.clk ∧ t.dat = s.dat) ∧
  (∀ (s : State) (f : Frame) (rest : List Instr) (n : Nat) (t : State) (e : LineIOError),
    s.CallsTransmit f rest → ReturnsAfter n s t → t.result = some (.err e) →
    ∃ calls a b, t.trace = calls ++
        [{ line := .clock, handle := t.clockLine, level := .low, answer := a },
         { line := .data, handle := t.dataLine, level := .low, answer := b }] ∧
      t.clk = (if a = .ok then .low else .unknown) ∧ t.dat = (if b = .ok then .low else .unknown))

/-- R123: what the receiver may sample, call by call. -/
def Obligations.ReceiverSamplesOnRisingEdges : Prop :=
  ∀ (clk dat : LineLevel) (c : Call) (cs : List Call) (xs : List Bool),
    sampleChoices clk dat [] = [[]] ∧
    (xs ∈ sampleChoices clk dat (c :: cs) ↔
      ((∃ x xs', xs = x :: xs' ∧ c.line = .clock ∧ c.level = .high ∧
          ((c.answer = .ok ∧ clk ≠ .high) ∨ c.answer ≠ .ok) ∧
          (dat = .unknown ∨ (dat = .high ∧ x = true) ∨ (dat = .low ∧ x = false)) ∧
          xs' ∈ sampleChoices (c.after .clock clk) (c.after .data dat) cs) ∨
        (¬ (c.line = .clock ∧ c.level = .high ∧ c.answer = .ok ∧ clk = .low) ∧
          xs ∈ sampleChoices (c.after .clock clk) (c.after .data dat) cs)))

/-! ### TRANSMIT as a whole -/

/-- R120, which the spec marks derived: the micro-steps, run from the call to the return, are the sequential form: the
same outcome, the same calls with the same answers, the same lines. -/
def Obligations.MicroStepsAreTheSequentialForm : Prop :=
  ∀ (s : State) (f : Frame) (a : FrameArg) (c d : Handle) (rest : List Instr),
    s.phase = .idle → s.events = [] → s.cmds = .transmit a c d :: rest → c ≠ d →
    resolveFrame s.returned a = some f → s.params.acceptsFrame f.length = true →
    ∃ n t, ReturnsAfter n s t ∧
      t.result = some (seqTransmit { s with clockLine := c, dataLine := d, trace := [] } f).1 ∧
      t.trace = (seqTransmit { s with clockLine := c, dataLine := d, trace := [] } f).2.trace ∧
      t.clk = (seqTransmit { s with clockLine := c, dataLine := d, trace := [] } f).2.clk ∧
      t.dat = (seqTransmit { s with clockLine := c, dataLine := d, trace := [] } f).2.dat ∧
      t.cmds = rest ∧ ∀ k, t.answerAt k = (seqTransmit { s with clockLine := c, dataLine := d, trace := [] } f).2.answerAt k

/-- R121, which the spec marks derived: how many calls a TRANSMIT issues, and what it reports when its `c`-th call
(1-based) is the first to fail. -/
def Obligations.CallCountsAndReportedPosition : Prop :=
  ∀ (s : State) (f : Frame) (rest : List Instr), s.CallsTransmit f rest →
    ∃ n t, ReturnsAfter n s t ∧
      ((∀ k, k < okCalls f → s.answerAt k = .ok) →
        t.result = some .ok ∧
        t.trace.length = 3 * f.length + (if 0 < f.length ∧ f.getLast? = some true then 1 else 0)) ∧
      (∀ c e, 1 ≤ c → c ≤ okCalls f → (∀ k, k + 1 < c → s.answerAt k = .ok) → s.answerAt (c - 1) = .err e →
        t.trace.length = c + 2 ∧
        t.result = some (.err
          { bitIndex := if c ≤ 3 * f.length then (c - 1) / 3 else f.length - 1
            line := if (c - 1) % 3 = 0 ∨ c = 3 * f.length + 1 then .data else .clock
            cause := e }))

/-- R170, which the spec marks derived: whatever the collaborator answers, a TRANSMIT returns, with an outcome, after
at most `3·|fr| + 3` calls, one a step. -/
def Obligations.EveryTransmitReturns : Prop :=
  ∀ (s : State) (f : Frame) (rest : List Instr), s.CallsTransmit f rest →
    ∃ n t, ReturnsAfter n s t ∧ t.result ≠ none ∧ t.cmds = rest ∧
      t.trace.length ≤ 3 * f.length + 3 ∧ n = t.trace.length + 1

/-- R124, which the spec marks derived: if the clock is Low at the start and every call succeeds, the receiver samples
exactly the bits of the frame. -/
def Obligations.ReceiverSamplesExactlyTheFrame : Prop :=
  ∀ (s : State) (f : Frame) (rest : List Instr), s.CallsTransmit f rest → s.clk = .low →
    (∀ k, k < okCalls f → s.answerAt k = .ok) →
    ∃ n t, ReturnsAfter n s t ∧ t.result = some .ok ∧ t.samples = [f]

/-- R122, which the spec marks derived: a TRANSMIT of an ENCODE frame in which every call succeeds: `3·L(N)` calls in
the repeating pattern data, clock High, clock Low, never TAIL, and both lines Low at the end. -/
def Obligations.EncoderFrameTransmits : Prop :=
  ∀ (s : State) (strip : Strip) (rest : List Instr), s.CallsTransmit (encodeFrame strip) rest →
    (∀ k, k < 3 * frameLength strip.length → s.answerAt k = .ok) →
    ∃ n t, ReturnsAfter n s t ∧ t.result = some .ok ∧
      t.trace.length = 3 * (32 * (1 + strip.length + max 1 ((strip.length + 63) / 64))) ∧
      t.trace.map (fun c => (c.line, c.level)) =
        (encodeFrame strip).flatMap (fun b =>
          [(Line.data, if b then Level.high else Level.low), (.clock, .high), (.clock, .low)]) ∧
      (∀ k u, runFor k s = .next u → k ≤ n → u.phase ≠ .tail) ∧
      t.clk = .low ∧ t.dat = .low

/-- R2, R3, R68, R93, R124: the program `F := ENCODE S; TRANSMIT F` from an idle block, every call answered `Ok`: the
receiver samples exactly one sequence of bits, and it decodes to the masked pixels of `S`. -/
def Obligations.PixelsReachTheWire : Prop :=
  ∀ (s : State) (strip : Strip) (c d : Handle) (rest : List Instr),
    s.phase = .idle → s.events = [] → s.clk = .low → c ≠ d →
    s.cmds = .encode strip :: .transmit .returned c d :: rest →
    s.params.acceptsStrip strip.length = true → s.params.acceptsFrame (frameLength strip.length) = true →
    (∀ k, k < 3 * frameLength strip.length → s.answerAt k = .ok) →
    ∃ n t f, runFor n s = .next t ∧ t.phase = .idle ∧ t.cmds = rest ∧ t.result = some .ok ∧
      t.samples = [f] ∧ decodeFrame f = some (strip.map Pixel.masked)

/-! ### The open parameters -/

/-- R6, D4, D5: the machine takes `N_MAX` and `W_IDX` as an argument that no step changes.  ENCODE refuses exactly the
strips larger than `N_MAX`, and a TRANSMIT that is otherwise acceptable refuses exactly the frames longer than
`2^W_IDX`; at the defaults, which reset has, neither refuses anything, and ENCODE is total (R80, R95).  The refusals and
the place of the argument are the model's choice (notes/assumptions/2.md). -/
def Obligations.OpenBoundsAreArguments : Prop :=
  (∀ (strip : Strip) (s : State),
    (exec (.encode strip) s = .refused .stripTooLong ↔ ∃ m, s.params.nMax = some m ∧ m < strip.length) ∧
    (s.params.nMax = none → ∃ f, exec (.encode strip) s = .next { s with returned := some f })) ∧
  (∀ (a : FrameArg) (c d : Handle) (f : Frame) (s : State), s.phase = .idle → c ≠ d →
    resolveFrame s.returned a = some f →
    (exec (.transmit a c d) s = .refused .frameTooLong ↔ ∃ w, s.params.wIdx = some w ∧ 2 ^ w < f.length)) ∧
  (∀ s t : State, step s = .next t → t.params = s.params) ∧
  State.reset.params = { nMax := none, wIdx := none }

/-- R6 ("must satisfy 2^W_IDX ≥ largest frame length"), R26, R141: every step keeps the latched frame, the frame
position, and the position that a pending or reported error records within `W_IDX` bits; and reset has it. -/
def Obligations.IndexesFitTheCounter : Prop :=
  (∀ s t : State, s.IndexFits → step s = .next t → t.IndexFits) ∧ State.reset.IndexFits
end

