-- ==== Sys2Proof/Laws/Encoder.lean ====
section
/-! SUPPORT. The lengths and numeric values of the encoder's words and bits. -/

namespace Sys2Proof.Machine

@[simp] theorem bits32_length (w : Word) : (bits32 w).length = 32 := by simp [bits32]

@[simp] theorem flatMap_bits32_length (ws : List Word) : (ws.flatMap bits32).length = 32 * ws.length := by
  induction ws with
  | nil => rfl
  | cons w ws ih => simp [ih]; omega

theorem frameWords_length (strip : Strip) :
    (frameWords strip).length = 1 + strip.length + latchCount strip.length := by
  simp [frameWords, latchWords]; omega

/-- At least one latch word (R81). -/
theorem latchCount_pos (n : Nat) : 1 ≤ latchCount n := by unfold latchCount; omega

theorem extractLsb'_toNat_div (w : Word) (start len : Nat) :
    (w.extractLsb' start len).toNat = w.toNat / 2 ^ start % 2 ^ len := by
  simp [BitVec.extractLsb'_toNat, Nat.shiftRight_eq_div_pow]

/-- `bits32` by word bit (R42): transmission position `k` is word bit `31 - k`. -/
theorem bits32_eq_getLsbD (w : Word) : bits32 w = (List.range 32).map (fun k => w.getLsbD (31 - k)) := by
  unfold bits32
  apply List.map_congr_left
  intro k hk
  simp at hk
  simp [BitVec.getMsbD, hk]

/-- A byte string of a word is the word again (R44). -/
theorem wordOfBytes_wordBytes (w : Word) :
    wordOfBytes (w.extractLsb' 24 8) (w.extractLsb' 16 8) (w.extractLsb' 8 8) (w.extractLsb' 0 8) = w := by
  unfold wordOfBytes
  apply BitVec.eq_of_toNat_eq
  simp only [BitVec.toNat_append, extractLsb'_toNat_div]
  have lt := w.isLt
  rw [← Nat.shiftLeft_add_eq_or_of_lt (by omega), ← Nat.shiftLeft_add_eq_or_of_lt (by omega),
    ← Nat.shiftLeft_add_eq_or_of_lt (by omega)]
  simp only [Nat.shiftLeft_eq]
  omega

end Sys2Proof.Machine
end

