-- ==== Sys2Proof/Laws/State.lean ====
section
/-! SUPPORT. One simp lemma per field per state update, so that no proof unfolds a record update. -/

namespace Sys2Proof.Machine

/-! ### State.goto -/

@[simp] theorem State.goto_clk (s : State) (p : Phase) : (s.goto p).clk = s.clk := rfl
@[simp] theorem State.goto_dat (s : State) (p : Phase) : (s.goto p).dat = s.dat := rfl
@[simp] theorem State.goto_phase (s : State) (p : Phase) : (s.goto p).phase = p := rfl
@[simp] theorem State.goto_fr (s : State) (p : Phase) : (s.goto p).fr = s.fr := rfl
@[simp] theorem State.goto_i (s : State) (p : Phase) : (s.goto p).i = s.i := rfl
@[simp] theorem State.goto_pend (s : State) (p : Phase) : (s.goto p).pend = s.pend := rfl
@[simp] theorem State.goto_result (s : State) (p : Phase) : (s.goto p).result = s.result := rfl
@[simp] theorem State.goto_returned (s : State) (p : Phase) : (s.goto p).returned = s.returned := rfl
@[simp] theorem State.goto_words (s : State) (p : Phase) : (s.goto p).words = s.words := rfl
@[simp] theorem State.goto_clockLine (s : State) (p : Phase) : (s.goto p).clockLine = s.clockLine := rfl
@[simp] theorem State.goto_dataLine (s : State) (p : Phase) : (s.goto p).dataLine = s.dataLine := rfl
@[simp] theorem State.goto_startClk (s : State) (p : Phase) : (s.goto p).startClk = s.startClk := rfl
@[simp] theorem State.goto_startDat (s : State) (p : Phase) : (s.goto p).startDat = s.startDat := rfl
@[simp] theorem State.goto_trace (s : State) (p : Phase) : (s.goto p).trace = s.trace := rfl
@[simp] theorem State.goto_answers (s : State) (p : Phase) : (s.goto p).answers = s.answers := rfl
@[simp] theorem State.goto_draws (s : State) (p : Phase) : (s.goto p).draws = s.draws := rfl
@[simp] theorem State.goto_cmds (s : State) (p : Phase) : (s.goto p).cmds = s.cmds := rfl
@[simp] theorem State.goto_events (s : State) (p : Phase) : (s.goto p).events = s.events := rfl
@[simp] theorem State.goto_params (s : State) (p : Phase) : (s.goto p).params = s.params := rfl

/-! ### State.finish -/

@[simp] theorem State.finish_clk (s : State) (r : TxResult) : (s.finish r).clk = s.clk := rfl
@[simp] theorem State.finish_dat (s : State) (r : TxResult) : (s.finish r).dat = s.dat := rfl
@[simp] theorem State.finish_phase (s : State) (r : TxResult) : (s.finish r).phase = .idle := rfl
@[simp] theorem State.finish_fr (s : State) (r : TxResult) : (s.finish r).fr = s.fr := rfl
@[simp] theorem State.finish_i (s : State) (r : TxResult) : (s.finish r).i = s.i := rfl
@[simp] theorem State.finish_pend (s : State) (r : TxResult) : (s.finish r).pend = s.pend := rfl
@[simp] theorem State.finish_result (s : State) (r : TxResult) : (s.finish r).result = some r := rfl
@[simp] theorem State.finish_returned (s : State) (r : TxResult) : (s.finish r).returned = s.returned := rfl
@[simp] theorem State.finish_words (s : State) (r : TxResult) : (s.finish r).words = s.words := rfl
@[simp] theorem State.finish_clockLine (s : State) (r : TxResult) : (s.finish r).clockLine = s.clockLine := rfl
@[simp] theorem State.finish_dataLine (s : State) (r : TxResult) : (s.finish r).dataLine = s.dataLine := rfl
@[simp] theorem State.finish_startClk (s : State) (r : TxResult) : (s.finish r).startClk = s.startClk := rfl
@[simp] theorem State.finish_startDat (s : State) (r : TxResult) : (s.finish r).startDat = s.startDat := rfl
@[simp] theorem State.finish_trace (s : State) (r : TxResult) : (s.finish r).trace = s.trace := rfl
@[simp] theorem State.finish_answers (s : State) (r : TxResult) : (s.finish r).answers = s.answers := rfl
@[simp] theorem State.finish_draws (s : State) (r : TxResult) : (s.finish r).draws = s.draws := rfl
@[simp] theorem State.finish_cmds (s : State) (r : TxResult) : (s.finish r).cmds = s.cmds := rfl
@[simp] theorem State.finish_events (s : State) (r : TxResult) : (s.finish r).events = s.events := rfl
@[simp] theorem State.finish_params (s : State) (r : TxResult) : (s.finish r).params = s.params := rfl

/-! ### State.report -/

@[simp] theorem State.report_clk (s : State) (e : LineIOError) : (s.report e).clk = s.clk := rfl
@[simp] theorem State.report_dat (s : State) (e : LineIOError) : (s.report e).dat = s.dat := rfl
@[simp] theorem State.report_phase (s : State) (e : LineIOError) : (s.report e).phase = .idle := rfl
@[simp] theorem State.report_fr (s : State) (e : LineIOError) : (s.report e).fr = s.fr := rfl
@[simp] theorem State.report_i (s : State) (e : LineIOError) : (s.report e).i = s.i := rfl
@[simp] theorem State.report_pend (s : State) (e : LineIOError) : (s.report e).pend = none := rfl
@[simp] theorem State.report_result (s : State) (e : LineIOError) : (s.report e).result = some (.err e) := rfl
@[simp] theorem State.report_returned (s : State) (e : LineIOError) : (s.report e).returned = s.returned := rfl
@[simp] theorem State.report_words (s : State) (e : LineIOError) : (s.report e).words = s.words := rfl
@[simp] theorem State.report_clockLine (s : State) (e : LineIOError) : (s.report e).clockLine = s.clockLine := rfl
@[simp] theorem State.report_dataLine (s : State) (e : LineIOError) : (s.report e).dataLine = s.dataLine := rfl
@[simp] theorem State.report_startClk (s : State) (e : LineIOError) : (s.report e).startClk = s.startClk := rfl
@[simp] theorem State.report_startDat (s : State) (e : LineIOError) : (s.report e).startDat = s.startDat := rfl
@[simp] theorem State.report_trace (s : State) (e : LineIOError) : (s.report e).trace = s.trace := rfl
@[simp] theorem State.report_answers (s : State) (e : LineIOError) : (s.report e).answers = s.answers := rfl
@[simp] theorem State.report_draws (s : State) (e : LineIOError) : (s.report e).draws = s.draws := rfl
@[simp] theorem State.report_cmds (s : State) (e : LineIOError) : (s.report e).cmds = s.cmds := rfl
@[simp] theorem State.report_events (s : State) (e : LineIOError) : (s.report e).events = s.events := rfl
@[simp] theorem State.report_params (s : State) (e : LineIOError) : (s.report e).params = s.params := rfl

/-! ### State.withCmds -/

@[simp] theorem State.withCmds_clk (s : State) (rest : List Instr) : (s.withCmds rest).clk = s.clk := rfl
@[simp] theorem State.withCmds_dat (s : State) (rest : List Instr) : (s.withCmds rest).dat = s.dat := rfl
@[simp] theorem State.withCmds_phase (s : State) (rest : List Instr) : (s.withCmds rest).phase = s.phase := rfl
@[simp] theorem State.withCmds_fr (s : State) (rest : List Instr) : (s.withCmds rest).fr = s.fr := rfl
@[simp] theorem State.withCmds_i (s : State) (rest : List Instr) : (s.withCmds rest).i = s.i := rfl
@[simp] theorem State.withCmds_pend (s : State) (rest : List Instr) : (s.withCmds rest).pend = s.pend := rfl
@[simp] theorem State.withCmds_result (s : State) (rest : List Instr) : (s.withCmds rest).result = s.result := rfl
@[simp] theorem State.withCmds_returned (s : State) (rest : List Instr) : (s.withCmds rest).returned = s.returned := rfl
@[simp] theorem State.withCmds_words (s : State) (rest : List Instr) : (s.withCmds rest).words = s.words := rfl
@[simp] theorem State.withCmds_clockLine (s : State) (rest : List Instr) :
    (s.withCmds rest).clockLine = s.clockLine := rfl
@[simp] theorem State.withCmds_dataLine (s : State) (rest : List Instr) : (s.withCmds rest).dataLine = s.dataLine := rfl
@[simp] theorem State.withCmds_startClk (s : State) (rest : List Instr) : (s.withCmds rest).startClk = s.startClk := rfl
@[simp] theorem State.withCmds_startDat (s : State) (rest : List Instr) : (s.withCmds rest).startDat = s.startDat := rfl
@[simp] theorem State.withCmds_trace (s : State) (rest : List Instr) : (s.withCmds rest).trace = s.trace := rfl
@[simp] theorem State.withCmds_answers (s : State) (rest : List Instr) : (s.withCmds rest).answers = s.answers := rfl
@[simp] theorem State.withCmds_draws (s : State) (rest : List Instr) : (s.withCmds rest).draws = s.draws := rfl
@[simp] theorem State.withCmds_cmds (s : State) (rest : List Instr) : (s.withCmds rest).cmds = rest := rfl
@[simp] theorem State.withCmds_events (s : State) (rest : List Instr) : (s.withCmds rest).events = s.events := rfl
@[simp] theorem State.withCmds_params (s : State) (rest : List Instr) : (s.withCmds rest).params = s.params := rfl

/-! ### State.abort -/

@[simp] theorem State.abort_clk (s : State) (k : Nat) (l : Line) (c : Cause) : (s.abort k l c).clk = s.clk := rfl
@[simp] theorem State.abort_dat (s : State) (k : Nat) (l : Line) (c : Cause) : (s.abort k l c).dat = s.dat := rfl
@[simp] theorem State.abort_phase (s : State) (k : Nat) (l : Line) (c : Cause) : (s.abort k l c).phase = .rstClk := rfl
@[simp] theorem State.abort_fr (s : State) (k : Nat) (l : Line) (c : Cause) : (s.abort k l c).fr = s.fr := rfl
@[simp] theorem State.abort_i (s : State) (k : Nat) (l : Line) (c : Cause) : (s.abort k l c).i = s.i := rfl
@[simp] theorem State.abort_pend (s : State) (k : Nat) (l : Line) (c : Cause) :
    (s.abort k l c).pend = some { bitIndex := k, line := l, cause := c } := rfl
@[simp] theorem State.abort_result (s : State) (k : Nat) (l : Line) (c : Cause) :
    (s.abort k l c).result = s.result := rfl
@[simp] theorem State.abort_returned (s : State) (k : Nat) (l : Line) (c : Cause) :
    (s.abort k l c).returned = s.returned := rfl
@[simp] theorem State.abort_words (s : State) (k : Nat) (l : Line) (c : Cause) : (s.abort k l c).words = s.words := rfl
@[simp] theorem State.abort_clockLine (s : State) (k : Nat) (l : Line) (c : Cause) :
    (s.abort k l c).clockLine = s.clockLine := rfl
@[simp] theorem State.abort_dataLine (s : State) (k : Nat) (l : Line) (c : Cause) :
    (s.abort k l c).dataLine = s.dataLine := rfl
@[simp] theorem State.abort_startClk (s : State) (k : Nat) (l : Line) (c : Cause) :
    (s.abort k l c).startClk = s.startClk := rfl
@[simp] theorem State.abort_startDat (s : State) (k : Nat) (l : Line) (c : Cause) :
    (s.abort k l c).startDat = s.startDat := rfl
@[simp] theorem State.abort_trace (s : State) (k : Nat) (l : Line) (c : Cause) : (s.abort k l c).trace = s.trace := rfl
@[simp] theorem State.abort_answers (s : State) (k : Nat) (l : Line) (c : Cause) :
    (s.abort k l c).answers = s.answers := rfl
@[simp] theorem State.abort_draws (s : State) (k : Nat) (l : Line) (c : Cause) : (s.abort k l c).draws = s.draws := rfl
@[simp] theorem State.abort_cmds (s : State) (k : Nat) (l : Line) (c : Cause) : (s.abort k l c).cmds = s.cmds := rfl
@[simp] theorem State.abort_events (s : State) (k : Nat) (l : Line) (c : Cause) :
    (s.abort k l c).events = s.events := rfl
@[simp] theorem State.abort_params (s : State) (k : Nat) (l : Line) (c : Cause) :
    (s.abort k l c).params = s.params := rfl

/-! ### State.startTransmit -/

@[simp] theorem State.startTransmit_clk (s : State) (f : Frame) (c d : Handle) :
    (s.startTransmit f c d).clk = s.clk := rfl
@[simp] theorem State.startTransmit_dat (s : State) (f : Frame) (c d : Handle) :
    (s.startTransmit f c d).dat = s.dat := rfl
@[simp] theorem State.startTransmit_phase (s : State) (f : Frame) (c d : Handle) :
    (s.startTransmit f c d).phase = if f = [] then .idle else .data := rfl
@[simp] theorem State.startTransmit_fr (s : State) (f : Frame) (c d : Handle) : (s.startTransmit f c d).fr = f := rfl
@[simp] theorem State.startTransmit_i (s : State) (f : Frame) (c d : Handle) : (s.startTransmit f c d).i = 0 := rfl
@[simp] theorem State.startTransmit_pend (s : State) (f : Frame) (c d : Handle) :
    (s.startTransmit f c d).pend = none := rfl
@[simp] theorem State.startTransmit_result (s : State) (f : Frame) (c d : Handle) :
    (s.startTransmit f c d).result = if f = [] then some .ok else none := rfl
@[simp] theorem State.startTransmit_returned (s : State) (f : Frame) (c d : Handle) :
    (s.startTransmit f c d).returned = s.returned := rfl
@[simp] theorem State.startTransmit_words (s : State) (f : Frame) (c d : Handle) :
    (s.startTransmit f c d).words = s.words := rfl
@[simp] theorem State.startTransmit_clockLine (s : State) (f : Frame) (c d : Handle) :
    (s.startTransmit f c d).clockLine = c := rfl
@[simp] theorem State.startTransmit_dataLine (s : State) (f : Frame) (c d : Handle) :
    (s.startTransmit f c d).dataLine = d := rfl
@[simp] theorem State.startTransmit_startClk (s : State) (f : Frame) (c d : Handle) :
    (s.startTransmit f c d).startClk = s.clk := rfl
@[simp] theorem State.startTransmit_startDat (s : State) (f : Frame) (c d : Handle) :
    (s.startTransmit f c d).startDat = s.dat := rfl
@[simp] theorem State.startTransmit_trace (s : State) (f : Frame) (c d : Handle) :
    (s.startTransmit f c d).trace = [] := rfl
@[simp] theorem State.startTransmit_answers (s : State) (f : Frame) (c d : Handle) :
    (s.startTransmit f c d).answers = s.answers := rfl
@[simp] theorem State.startTransmit_draws (s : State) (f : Frame) (c d : Handle) :
    (s.startTransmit f c d).draws = s.draws := rfl
@[simp] theorem State.startTransmit_cmds (s : State) (f : Frame) (c d : Handle) :
    (s.startTransmit f c d).cmds = s.cmds := rfl
@[simp] theorem State.startTransmit_events (s : State) (f : Frame) (c d : Handle) :
    (s.startTransmit f c d).events = s.events := rfl
@[simp] theorem State.startTransmit_params (s : State) (f : Frame) (c d : Handle) :
    (s.startTransmit f c d).params = s.params := rfl

/-! ### State.resetBlock -/

@[simp] theorem State.resetBlock_clk (s : State) (b : Bool) : (s.resetBlock b).clk = s.linesAfterReset b := rfl
@[simp] theorem State.resetBlock_dat (s : State) (b : Bool) : (s.resetBlock b).dat = s.linesAfterReset b := rfl
@[simp] theorem State.resetBlock_phase (s : State) (b : Bool) : (s.resetBlock b).phase = .idle := rfl
@[simp] theorem State.resetBlock_fr (s : State) (b : Bool) : (s.resetBlock b).fr = [] := rfl
@[simp] theorem State.resetBlock_i (s : State) (b : Bool) : (s.resetBlock b).i = 0 := rfl
@[simp] theorem State.resetBlock_pend (s : State) (b : Bool) : (s.resetBlock b).pend = none := rfl
@[simp] theorem State.resetBlock_result (s : State) (b : Bool) : (s.resetBlock b).result = none := rfl
@[simp] theorem State.resetBlock_returned (s : State) (b : Bool) : (s.resetBlock b).returned = s.returned := rfl
@[simp] theorem State.resetBlock_words (s : State) (b : Bool) : (s.resetBlock b).words = [] := rfl
@[simp] theorem State.resetBlock_clockLine (s : State) (b : Bool) : (s.resetBlock b).clockLine = s.clockLine := rfl
@[simp] theorem State.resetBlock_dataLine (s : State) (b : Bool) : (s.resetBlock b).dataLine = s.dataLine := rfl
@[simp] theorem State.resetBlock_startClk (s : State) (b : Bool) :
    (s.resetBlock b).startClk = s.linesAfterReset b := rfl
@[simp] theorem State.resetBlock_startDat (s : State) (b : Bool) :
    (s.resetBlock b).startDat = s.linesAfterReset b := rfl
@[simp] theorem State.resetBlock_trace (s : State) (b : Bool) : (s.resetBlock b).trace = [] := rfl
@[simp] theorem State.resetBlock_answers (s : State) (b : Bool) : (s.resetBlock b).answers = s.answers := rfl
@[simp] theorem State.resetBlock_draws (s : State) (b : Bool) : (s.resetBlock b).draws = s.draws := rfl
@[simp] theorem State.resetBlock_cmds (s : State) (b : Bool) : (s.resetBlock b).cmds = s.cmds := rfl
@[simp] theorem State.resetBlock_events (s : State) (b : Bool) : (s.resetBlock b).events = s.events := rfl
@[simp] theorem State.resetBlock_params (s : State) (b : Bool) : (s.resetBlock b).params = s.params := rfl

/-! ### State.setLevel -/

@[simp] theorem State.setLevel_clk (s : State) (l : Line) (v : Level) :
    (s.setLevel l v).clk = if l = .clock then lineAfter v (s.answerAt 0) else s.clk := by cases l <;> rfl
@[simp] theorem State.setLevel_dat (s : State) (l : Line) (v : Level) :
    (s.setLevel l v).dat = if l = .data then lineAfter v (s.answerAt 0) else s.dat := by cases l <;> rfl
@[simp] theorem State.setLevel_phase (s : State) (l : Line) (v : Level) :
    (s.setLevel l v).phase = s.phase := by cases l <;> rfl
@[simp] theorem State.setLevel_fr (s : State) (l : Line) (v : Level) : (s.setLevel l v).fr = s.fr := by cases l <;> rfl
@[simp] theorem State.setLevel_i (s : State) (l : Line) (v : Level) : (s.setLevel l v).i = s.i := by cases l <;> rfl
@[simp] theorem State.setLevel_pend (s : State) (l : Line) (v : Level) :
    (s.setLevel l v).pend = s.pend := by cases l <;> rfl
@[simp] theorem State.setLevel_result (s : State) (l : Line) (v : Level) :
    (s.setLevel l v).result = s.result := by cases l <;> rfl
@[simp] theorem State.setLevel_returned (s : State) (l : Line) (v : Level) :
    (s.setLevel l v).returned = s.returned := by cases l <;> rfl
@[simp] theorem State.setLevel_words (s : State) (l : Line) (v : Level) :
    (s.setLevel l v).words = s.words := by cases l <;> rfl
@[simp] theorem State.setLevel_clockLine (s : State) (l : Line) (v : Level) :
    (s.setLevel l v).clockLine = s.clockLine := by cases l <;> rfl
@[simp] theorem State.setLevel_dataLine (s : State) (l : Line) (v : Level) :
    (s.setLevel l v).dataLine = s.dataLine := by cases l <;> rfl
@[simp] theorem State.setLevel_startClk (s : State) (l : Line) (v : Level) :
    (s.setLevel l v).startClk = s.startClk := by cases l <;> rfl
@[simp] theorem State.setLevel_startDat (s : State) (l : Line) (v : Level) :
    (s.setLevel l v).startDat = s.startDat := by cases l <;> rfl
@[simp] theorem State.setLevel_trace (s : State) (l : Line) (v : Level) :
    (s.setLevel l v).trace = s.trace ++ [{ line := l, handle := s.handleOf l, level := v, answer := s.answerAt 0 }] := by cases l <;> rfl
@[simp] theorem State.setLevel_answers (s : State) (l : Line) (v : Level) :
    (s.setLevel l v).answers = s.answers.tail := by cases l <;> rfl
@[simp] theorem State.setLevel_draws (s : State) (l : Line) (v : Level) :
    (s.setLevel l v).draws = s.draws + 1 := by cases l <;> rfl
@[simp] theorem State.setLevel_cmds (s : State) (l : Line) (v : Level) :
    (s.setLevel l v).cmds = s.cmds := by cases l <;> rfl
@[simp] theorem State.setLevel_events (s : State) (l : Line) (v : Level) :
    (s.setLevel l v).events = s.events := by cases l <;> rfl
@[simp] theorem State.setLevel_params (s : State) (l : Line) (v : Level) :
    (s.setLevel l v).params = s.params := by cases l <;> rfl

/-! ### State.tickEvents -/

@[simp] theorem State.tickEvents_clk (s : State) :
    (s.tickEvents).clk = s.clk := by unfold State.tickEvents; split <;> rfl
@[simp] theorem State.tickEvents_dat (s : State) :
    (s.tickEvents).dat = s.dat := by unfold State.tickEvents; split <;> rfl
@[simp] theorem State.tickEvents_phase (s : State) :
    (s.tickEvents).phase = s.phase := by unfold State.tickEvents; split <;> rfl
@[simp] theorem State.tickEvents_fr (s : State) : (s.tickEvents).fr = s.fr := by unfold State.tickEvents; split <;> rfl
@[simp] theorem State.tickEvents_i (s : State) : (s.tickEvents).i = s.i := by unfold State.tickEvents; split <;> rfl
@[simp] theorem State.tickEvents_pend (s : State) :
    (s.tickEvents).pend = s.pend := by unfold State.tickEvents; split <;> rfl
@[simp] theorem State.tickEvents_result (s : State) :
    (s.tickEvents).result = s.result := by unfold State.tickEvents; split <;> rfl
@[simp] theorem State.tickEvents_returned (s : State) :
    (s.tickEvents).returned = s.returned := by unfold State.tickEvents; split <;> rfl
@[simp] theorem State.tickEvents_words (s : State) :
    (s.tickEvents).words = s.words := by unfold State.tickEvents; split <;> rfl
@[simp] theorem State.tickEvents_clockLine (s : State) :
    (s.tickEvents).clockLine = s.clockLine := by unfold State.tickEvents; split <;> rfl
@[simp] theorem State.tickEvents_dataLine (s : State) :
    (s.tickEvents).dataLine = s.dataLine := by unfold State.tickEvents; split <;> rfl
@[simp] theorem State.tickEvents_startClk (s : State) :
    (s.tickEvents).startClk = s.startClk := by unfold State.tickEvents; split <;> rfl
@[simp] theorem State.tickEvents_startDat (s : State) :
    (s.tickEvents).startDat = s.startDat := by unfold State.tickEvents; split <;> rfl
@[simp] theorem State.tickEvents_trace (s : State) :
    (s.tickEvents).trace = s.trace := by unfold State.tickEvents; split <;> rfl
@[simp] theorem State.tickEvents_answers (s : State) :
    (s.tickEvents).answers = s.answers := by unfold State.tickEvents; split <;> rfl
@[simp] theorem State.tickEvents_draws (s : State) :
    (s.tickEvents).draws = s.draws := by unfold State.tickEvents; split <;> rfl
@[simp] theorem State.tickEvents_cmds (s : State) :
    (s.tickEvents).cmds = s.cmds := by unfold State.tickEvents; split <;> rfl
@[simp] theorem State.tickEvents_params (s : State) :
    (s.tickEvents).params = s.params := by unfold State.tickEvents; split <;> rfl

end Sys2Proof.Machine
end

