-- ==== Sys2Proof/Laws/Ops.lean ====
section
/-! SUPPORT. One lemma per shared operation that says everything it can do. -/

namespace Sys2Proof.Config.Params

/-! ### The open bounds -/

theorem acceptsStrip_iff {p : Params} {n : Nat} : p.acceptsStrip n = true ↔ ∀ m, p.nMax = some m → n ≤ m := by
  unfold acceptsStrip withinBound
  cases p.nMax <;> simp

theorem acceptsFrame_iff {p : Params} {n : Nat} : p.acceptsFrame n = true ↔ ∀ w, p.wIdx = some w → n ≤ 2 ^ w := by
  unfold acceptsFrame withinBound
  cases p.wIdx <;> simp

@[simp] theorem acceptsStrip_zero (p : Params) : p.acceptsStrip 0 = true := by simp [acceptsStrip_iff]
@[simp] theorem acceptsFrame_zero (p : Params) : p.acceptsFrame 0 = true := by simp [acceptsFrame_iff]

end Sys2Proof.Config.Params

namespace Sys2Proof.Machine

/-! ### Answers and calls -/

@[simp] theorem State.answerAt_setLevel (s : State) (l : Line) (v : Level) (k : Nat) :
    (s.setLevel l v).answerAt k = s.answerAt (k + 1) := by
  simp only [State.answerAt, State.setLevel_answers, State.setLevel_draws, List.getElem?_tail]
  have shift : s.draws + 1 + k = s.draws + (k + 1) := by omega
  rw [shift]

@[simp] theorem State.answerAt_goto (s : State) (p : Phase) (k : Nat) : (s.goto p).answerAt k = s.answerAt k := rfl
@[simp] theorem State.answerAt_finish (s : State) (r : TxResult) (k : Nat) :
    (s.finish r).answerAt k = s.answerAt k := rfl
@[simp] theorem State.answerAt_report (s : State) (e : LineIOError) (k : Nat) :
    (s.report e).answerAt k = s.answerAt k := rfl
@[simp] theorem State.answerAt_abort (s : State) (i : Nat) (l : Line) (c : Cause) (k : Nat) :
    (s.abort i l c).answerAt k = s.answerAt k := rfl
@[simp] theorem State.answerAt_withCmds (s : State) (rest : List Instr) (k : Nat) :
    (s.withCmds rest).answerAt k = s.answerAt k := rfl
@[simp] theorem State.answerAt_tickEvents (s : State) (k : Nat) : s.tickEvents.answerAt k = s.answerAt k := by
  simp [State.answerAt]

@[simp] theorem levelReg_lvl (b : Bool) : levelReg (lvl b) = if b then .high else .low := by cases b <;> rfl
@[simp] theorem lineAfter_ok (v : Level) : lineAfter v .ok = levelReg v := rfl
@[simp] theorem lineAfter_err (v : Level) (c : Cause) : lineAfter v (.err c) = .unknown := rfl

/-- A call for Low leaves the line Low or Unknown. -/
theorem lineAfter_low (a : Answer) : lineAfter .low a = if a = .ok then .low else .unknown := by
  cases a <;> simp [lineAfter, levelReg]

/-- A data call, field by field. -/
theorem State.setLevel_data (s : State) (v : Level) :
    s.setLevel .data v =
      { s with
        dat := lineAfter v (s.answerAt 0)
        trace := s.trace ++ [{ line := .data, handle := s.dataLine, level := v, answer := s.answerAt 0 }]
        answers := s.answers.tail
        draws := s.draws + 1 } := rfl

/-- A clock call, field by field. -/
theorem State.setLevel_clock (s : State) (v : Level) :
    s.setLevel .clock v =
      { s with
        clk := lineAfter v (s.answerAt 0)
        trace := s.trace ++ [{ line := .clock, handle := s.clockLine, level := v, answer := s.answerAt 0 }]
        answers := s.answers.tail
        draws := s.draws + 1 } := rfl

/-! ### Attempt, abort and the end of a bit-pair -/

theorem State.attempt_of_ok {s : State} {l : Line} {v : Level} {k : Nat} {onOk : State → State}
    (h : s.answerAt 0 = .ok) : s.attempt l v k onOk = onOk (s.setLevel l v) := by
  unfold State.attempt; rw [h]

theorem State.attempt_of_err {s : State} {l : Line} {v : Level} {k : Nat} {onOk : State → State} {c : Cause}
    (h : s.answerAt 0 = .err c) : s.attempt l v k onOk = (s.setLevel l v).abort k l c := by
  unfold State.attempt; rw [h]

/-- Everything an attempted call can do (R114 to R117). -/
theorem State.attempt_cases (s : State) (l : Line) (v : Level) (k : Nat) (onOk : State → State) :
    (s.answerAt 0 = .ok ∧ s.attempt l v k onOk = onOk (s.setLevel l v)) ∨
      ∃ c, s.answerAt 0 = .err c ∧ s.attempt l v k onOk = (s.setLevel l v).abort k l c := by
  cases h : s.answerAt 0 with
  | ok => exact .inl ⟨rfl, attempt_of_ok h⟩
  | err c => exact .inr ⟨c, rfl, attempt_of_err h⟩

/-- The three successors of a bit-pair (R116). -/
theorem State.endBitPair_cases (b : Bool) (s : State) :
    (s.i + 1 < s.fr.length ∧ s.endBitPair b = { s with i := s.i + 1, phase := .data }) ∨
      (¬ s.i + 1 < s.fr.length ∧ b = true ∧ s.endBitPair b = s.goto .tail) ∨
      (¬ s.i + 1 < s.fr.length ∧ b = false ∧ s.endBitPair b = s.finish .ok) := by
  unfold State.endBitPair
  split
  · simp_all
  · cases b <;> simp_all

/-- A micro-step that answers a next state was in its phase. -/
theorem inPhase_eq_next {p : Phase} {s t : State} {act : Host.Outcome State Fault Refusal} :
    inPhase p s act = .next t ↔ s.phase = p ∧ act = .next t := by
  unfold inPhase; split <;> simp_all

/-! ### Placing an instruction -/

theorem State.withBit_getElem? (s : State) (b : Bool) : (s.withBit b).fr[(s.withBit b).i]? = some b := by
  unfold State.withBit
  split
  · split
    · simp_all
    · rfl
  · rfl

@[simp] theorem State.withBit_cmds (s : State) (b : Bool) : (s.withBit b).cmds = s.cmds := by
  unfold State.withBit
  split
  · split <;> rfl
  · rfl

@[simp] theorem State.place_events (s : State) (i : Instr) : (s.place i).events = [] := by cases i <;> rfl

end Sys2Proof.Machine
end

