-- ==== Sys2Proof/Laws/PerInstr.lean ====
section
/-! SUPPORT. Statements about every instruction as syntax, one lemma per constructor. -/

/-- R64, R90: masking the fields of an instruction changes neither its encoding nor whether it is well-formed, and doing
it twice is doing it once. -/
def Sys2Proof.Laws.Masking.Statement (i : Sys2Proof.Instr) : Prop :=
  Sys2Proof.encode i.masked = Sys2Proof.encode i ∧ i.masked.wf = i.wf ∧ i.masked.masked = i.masked

theorem Sys2Proof.Laws.Masking.encode (strip : Sys2Proof.Strip) :
    Sys2Proof.Laws.Masking.Statement (.encode strip) := ⟨rfl, rfl, rfl⟩

theorem Sys2Proof.Laws.Masking.transmit (f : Sys2Proof.FrameArg) (c d : Sys2Proof.Handle) :
    Sys2Proof.Laws.Masking.Statement (.transmit f c d) := ⟨rfl, rfl, rfl⟩

theorem Sys2Proof.Laws.Masking.emitStart : Sys2Proof.Laws.Masking.Statement .emitStart := ⟨rfl, rfl, rfl⟩

theorem Sys2Proof.Laws.Masking.emitPixel (p : Sys2Proof.Pixel) :
    Sys2Proof.Laws.Masking.Statement (.emitPixel p) := by
  have ofNat_mod : ∀ k n : Nat, BitVec.ofNat k (n % 2 ^ k) = BitVec.ofNat k n := by
    intro k n
    apply BitVec.eq_of_toNat_eq
    simp
  refine ⟨?_, rfl, ?_⟩
  · simp only [Sys2Proof.Instr.masked, Sys2Proof.encode, Sys2Proof.pixelWordLayout, Sys2Proof.Pixel.masked,
      Sys2Proof.maskField, Sys2Proof.Config.briBits, Sys2Proof.Config.colBits, ofNat_mod]
  · simp [Sys2Proof.Instr.masked, Sys2Proof.Pixel.masked, Sys2Proof.maskField]

theorem Sys2Proof.Laws.Masking.emitLatch (n : Nat) :
    Sys2Proof.Laws.Masking.Statement (.emitLatch n) := ⟨rfl, rfl, rfl⟩

theorem Sys2Proof.Laws.Masking.drvData (b : Bool) :
    Sys2Proof.Laws.Masking.Statement (.drvData b) := ⟨rfl, rfl, rfl⟩

theorem Sys2Proof.Laws.Masking.drvClkRise : Sys2Proof.Laws.Masking.Statement .drvClkRise := ⟨rfl, rfl, rfl⟩

theorem Sys2Proof.Laws.Masking.drvClkFall : Sys2Proof.Laws.Masking.Statement .drvClkFall := ⟨rfl, rfl, rfl⟩

theorem Sys2Proof.Laws.Masking.drvTail : Sys2Proof.Laws.Masking.Statement .drvTail := ⟨rfl, rfl, rfl⟩

theorem Sys2Proof.Laws.Masking.drvRstClk : Sys2Proof.Laws.Masking.Statement .drvRstClk := ⟨rfl, rfl, rfl⟩

theorem Sys2Proof.Laws.Masking.drvRstDat : Sys2Proof.Laws.Masking.Statement .drvRstDat := ⟨rfl, rfl, rfl⟩
end

