-- ==== Sys2Proof/Laws/Step.lean ====
section
/-! SUPPORT. What exec, step and a run can do: one inversion lemma each. -/

namespace Sys2Proof.Machine

/-! ### exec -/

/-- Everything a micro-step that answers a next state did (R114 to R119). -/
theorem microStep_cases {i : Instr} {ph : Phase} {s t : State} (hc : contextOf i = some (.call ph))
    (h : exec i s = .next t) :
    s.phase = ph ∧
      ((∃ b, i = .drvData b ∧ ph = .data ∧ s.fr[s.i]? = some b ∧
          t = s.attempt .data (lvl b) s.i (·.goto .clkHi)) ∨
        (i = .drvClkRise ∧ ph = .clkHi ∧ t = s.attempt .clock .high s.i (·.goto .clkLo)) ∨
        (∃ b, i = .drvClkFall ∧ ph = .clkLo ∧ s.fr[s.i]? = some b ∧
          t = s.attempt .clock .low s.i (State.endBitPair b)) ∨
        (i = .drvTail ∧ ph = .tail ∧ t = s.attempt .data .low (s.fr.length - 1) (·.finish .ok)) ∨
        (i = .drvRstClk ∧ ph = .rstClk ∧ t = (s.setLevel .clock .low).goto .rstDat) ∨
        (∃ e, i = .drvRstDat ∧ ph = .rstDat ∧ s.pend = some e ∧ t = (s.setLevel .data .low).report e)) := by
  cases i <;> simp only [contextOf, Option.some.injEq, Context.call.injEq, reduceCtorEq] at hc <;> subst hc <;>
    simp only [exec, execDrvData, execDrvClkRise, execDrvClkFall, execDrvTail, execDrvRstClk, execDrvRstDat,
      inPhase_eq_next] at h <;>
    refine ⟨h.1, ?_⟩ <;> replace h := h.2
  case drvData b =>
    left
    split at h
    · simp at h
    · split at h
      · rename_i b' hb hbb
        subst hbb
        simp at h
        exact ⟨_, rfl, rfl, hb, h.symm⟩
      · simp at h
  case drvClkRise => simp at h; simp [h]
  case drvClkFall =>
    split at h
    · simp at h
    · rename_i b' hb
      simp at h
      simp [hb, h]
  case drvTail => simp at h; simp [h]
  case drvRstClk => simp at h; simp [h]
  case drvRstDat =>
    split at h
    · simp at h
    · rename_i e he
      simp at h
      simp [he, h]

/-- Everything else that answers a next state: an accepted TRANSMIT, or an operation that only gives the caller a frame
or a word. -/
theorem operation_cases {i : Instr} {s t : State} (hc : ∀ ph, contextOf i ≠ some (.call ph)) (h : exec i s = .next t) :
    (∃ a c d f, i = .transmit a c d ∧ s.phase = .idle ∧ c ≠ d ∧ resolveFrame s.returned a = some f ∧
        s.params.acceptsFrame f.length = true ∧ t = s.startTransmit f c d) ∨
      ∃ r w, t = { s with returned := r, words := w } := by
  cases i <;> simp [contextOf] at hc
  case transmit a c d =>
    left
    simp only [exec, execTransmit] at h
    split at h
    · simp at h
    split at h
    · simp at h
    split at h
    · rename_i h1 h2 _ f hf
      split at h
      · rename_i hb
        simp at h h1
        exact ⟨a, c, d, f, rfl, h1, h2, hf, hb, h.symm⟩
      · simp at h
    · simp at h
  case encode =>
    simp only [exec, execEncode] at h
    split at h
    · exact .inr ⟨_, _, (Host.Outcome.next.inj h).symm⟩
    · simp at h
  all_goals
    simp only [exec, execEmitStart, execEmitPixel, execEmitLatch, Host.Outcome.next.injEq] at h
    exact .inr ⟨_, _, h.symm⟩

theorem exec_encode_of_accepts {strip : Strip} {s : State} (h : s.params.acceptsStrip strip.length = true) :
    exec (.encode strip) s = .next { s with returned := some (encodeFrame strip) } := by
  simp [exec, execEncode, h]

theorem exec_transmit_of_accepts {a : FrameArg} {c d : Handle} {f : Frame} {s : State} (hp : s.phase = .idle)
    (hcd : c ≠ d) (hf : resolveFrame s.returned a = some f) (hb : s.params.acceptsFrame f.length = true) :
    exec (.transmit a c d) s = .next (s.startTransmit f c d) := by
  simp [exec, execTransmit, hp, hcd, hf, hb]

/-! ### step -/

theorem step_of_no_events {s : State} (h : s.events = []) : step s = stepBlock s := by
  simp [step, State.dueEvent, State.tickEvents, h]

/-- In IDLE with no event coming, a step runs the caller's next call. -/
theorem step_of_call {s : State} {i : Instr} {rest : List Instr} (hp : s.phase = .idle) (he : s.events = [])
    (hc : s.cmds = i :: rest) : step s = exec i (s.withCmds rest) := by
  simp [step, State.dueEvent, State.tickEvents, he, stepBlock, State.select, hp, hc]

/-- Everything a step that answers a next state did. -/
theorem step_cases {s t : State} (h : step s = .next t) :
    (∃ b es, s.events = { after := 0, kind := .reset b } :: es ∧ t = ({ s with events := es }).resetBlock b) ∨
      (∃ a c d es, s.events = { after := 0, kind := .transmit a c d } :: es ∧
        exec (.transmit a c d) { s with events := es } = .next t) ∨
      (s.dueEvent = none ∧ s.phase = .idle ∧ s.cmds = [] ∧ t = s.tickEvents) ∨
      (s.dueEvent = none ∧ s.phase = .idle ∧
        ∃ i rest, s.cmds = i :: rest ∧ exec i (s.tickEvents.withCmds rest) = .next t) ∨
      (s.dueEvent = none ∧ s.phase ≠ .idle ∧
        ∃ i, contextOf i = some (.call s.phase) ∧ exec i s.tickEvents = .next t) := by
  unfold step at h
  cases hd : s.dueEvent with
  | some p =>
    rw [hd] at h
    obtain ⟨k, u⟩ := p
    unfold State.dueEvent at hd
    split at hd
    · simp at hd
    rename_i e es he
    split at hd <;> simp at hd
    rename_i h0
    obtain ⟨rfl, rfl⟩ := hd
    obtain ⟨a, k⟩ := e
    simp at h0
    subst h0
    cases k with
    | reset b =>
      simp [takeEvent] at h
      exact .inl ⟨b, es, he, h.symm⟩
    | transmit a c d =>
      simp only [takeEvent] at h
      exact .inr (.inl ⟨a, c, d, es, he, h⟩)
  | none =>
    rw [hd] at h
    simp only [stepBlock, State.select, State.tickEvents_phase, State.tickEvents_cmds, State.tickEvents_fr,
      State.tickEvents_i] at h
    cases hp : s.phase <;> simp only [hp] at h
    · cases hc : s.cmds with
      | nil => simp [hc] at h; simp [h]
      | cons i rest =>
        simp only [hc] at h
        exact .inr (.inr (.inr (.inl ⟨rfl, rfl, i, rest, rfl, h⟩)))
    · cases hb : s.fr[s.i]? with
      | none => simp [hb] at h
      | some b =>
        simp only [hb] at h
        exact .inr (.inr (.inr (.inr ⟨rfl, by simp, _, rfl, h⟩)))
    all_goals exact .inr (.inr (.inr (.inr ⟨rfl, by simp, _, rfl, h⟩)))

/-! ### Runs -/

theorem runFor_succ {n : Nat} {s t : State} (h : step s = .next t) : runFor (n + 1) s = runFor n t := by
  simp [runFor, h]

theorem runFor_add {m n : Nat} {s t : State} (h : runFor m s = .next t) : runFor (m + n) s = runFor n t := by
  induction m generalizing s with
  | zero => simp [runFor] at h; simp [h]
  | succ m ih =>
    rw [Nat.succ_add]
    simp only [runFor] at h ⊢
    cases hs : step s with
    | next u => rw [hs] at h; exact ih h
    | fault f => rw [hs] at h; simp at h
    | refused r => rw [hs] at h; simp at h

end Sys2Proof.Machine
end

