-- ==== Sys2Proof/Tests/Slice0.lean ====
section
/-! SUPPORT. The model's own tests: the checks of WellFormed, words written out from the encodings, one step of each
instruction against the spec's examples (95_test_vectors.md and the examples of the rules), and a witness for the
hypotheses of each obligation. -/

open Sys2Proof Sys2Proof.Machine

namespace Sys2Proof.Tests

/-- A state in phase `ph` of a transmission of `fr` at bit-pair `i`, the collaborator's answers given. -/
def at' (ph : Phase) (fr : Frame) (i : Nat) (answers : List Answer) : State :=
  { clk := .low, dat := .low, phase := ph, fr := fr, i := i, pend := none, result := none
    returned := none, words := [], clockLine := { id := 5 }, dataLine := { id := 6 }
    startClk := .low, startDat := .low, trace := [], answers := answers, draws := 0, cmds := [], events := []
    params := Config.params }

/-- An idle block whose caller will call `cmds`. -/
def calling (cmds : List Instr) (answers : List Answer) : State := (at' .idle [] 0 answers).withCmds cmds

/-- The outcome is a next state that meets `p`. -/
def nextMeets (o : Host.Outcome State Fault Refusal) (p : State → Bool) : Bool :=
  match o with
  | .next t => p t
  | .fault _ => false
  | .refused _ => false

/-- The outcome is this refusal. -/
def refusedBy (o : Host.Outcome State Fault Refusal) (r : Refusal) : Bool :=
  match o with
  | .next _ => false
  | .fault _ => false
  | .refused r' => decide (r' = r)

def fail : Answer := .err Cause.base
def failure (k : Nat) (l : Line) : LineIOError := { bitIndex := k, line := l, cause := Cause.base }
def red : Pixel := { brightness := 31, red := 255, green := 0, blue := 0 }

/-! ### WellFormed refuses an ill-formed term of each check -/

theorem test_wf_refuses_same_handle : (Instr.transmit (.bits []) { id := 1 } { id := 1 }).wf = false := by decide
theorem test_wf_refuses_long_strip :
    (Instr.encode [red, red]).wfFor { nMax := some 1, wIdx := none } = false := by decide
theorem test_wf_refuses_long_latch : (Instr.emitLatch 2).wfFor { nMax := some 1, wIdx := none } = false := by decide
theorem test_wf_refuses_long_frame :
    (Instr.transmit (.bits [true, true, true]) { id := 1 } { id := 2 }).wfFor { nMax := none, wIdx := some 1 } = false := by
  decide
theorem test_wf_refuses_long_word_frame :
    (Instr.transmit (.words [0#32]) { id := 1 } { id := 2 }).wfFor { nMax := none, wIdx := some 4 } = false := by decide
theorem test_wf_accepts : (Instr.transmit (.bits [true]) { id := 1 } { id := 2 }).wf = true := by decide

/-! ### Words written out from R61 to R66 -/

theorem test_decode_emitStart : decode .frameStart [0x00#8, 0x00#8, 0x00#8, 0x00#8] = .ok .emitStart [] := by decide
theorem test_decode_emitPixel :
    decode (.frameBody 0) [0b11100001#8, 0b01010110#8, 0b00110100#8, 0b00010010#8] =
      .ok (.emitPixel { brightness := 1, red := 0x12, green := 0x34, blue := 0x56 }) [] := by decide
theorem test_decode_emitLatch_two_words :
    decode (.frameBody 65) [0#8, 0#8, 0#8, 0#8, 0#8, 0#8, 0#8, 0#8, 7#8] = .ok (.emitLatch 65) [7#8] := by decide
theorem test_decode_rejects_short_latch :
    decode (.frameBody 65) [0#8, 0#8, 0#8, 0#8] = .reject .latchTooShort := by decide
theorem test_decode_rejects_never_emitted :
    decode (.frameBody 1) [0x12#8, 0x34#8, 0x56#8, 0x78#8] = .reject .neverEmitted := by decide
theorem test_decode_rejects_start : decode .frameStart [0x00#8, 0x00#8, 0x00#8, 0x01#8] = .reject .notStartWord := by
  decide
theorem test_decode_rejects_short_word : decode .frameStart [0x00#8] = .reject .tooShort := by decide
theorem test_decode_drvData_low : decode (.call .data) [0b10#8] = .ok (.drvData false) [] := by decide
theorem test_decode_drvData_high : decode (.call .data) [0b11#8] = .ok (.drvData true) [] := by decide
theorem test_decode_drvClkRise : decode (.call .clkHi) [0b01#8] = .ok .drvClkRise [] := by decide
theorem test_decode_drvClkFall : decode (.call .clkLo) [0b00#8] = .ok .drvClkFall [] := by decide
theorem test_decode_drvTail : decode (.call .tail) [0b10#8] = .ok .drvTail [] := by decide
theorem test_decode_drvRstClk : decode (.call .rstClk) [0b00#8] = .ok .drvRstClk [] := by decide
theorem test_decode_drvRstDat : decode (.call .rstDat) [0b10#8] = .ok .drvRstDat [] := by decide
theorem test_decode_rejects_other_phase : decode (.call .clkHi) [0b00#8] = .reject .notThisPhase := by decide
theorem test_decode_rejects_high_bits : decode (.call .clkHi) [0b101#8] = .reject .notACallCode := by decide
theorem test_encode_emitPixel :
    encode (.emitPixel { brightness := 16, red := 0x80, green := 0x40, blue := 0x20 }) =
      some [0xF0#8, 0x20#8, 0x40#8, 0x80#8] := by decide

/-- The table's words, as the host gives them. -/
theorem test_table_words :
    decodeTableWord 32 0 = some .emitStart ∧
      decodeTableWord 32 0xE0000000 = some (.emitPixel { brightness := 0, red := 0, green := 0, blue := 0 }) ∧
      decodeTableWord 8 0b10 = some (.drvData false) ∧ decodeTableWord 8 0b01 = some .drvClkRise ∧
      decodeTableWord 8 0b00 = some .drvClkFall ∧ decodeTableWord 8 0b100 = none ∧
      decodeTableWord 32 0x12345678 = none := by decide

/-- The first step after reset runs a placed word. -/
theorem test_placed_pixel_runs :
    nextMeets (step (State.reset.withFetchWord 32 0xE1563412)) (fun t => t.words == [0xE1563412#32]) = true := by decide

/-! ### The encoder (95_test_vectors.md 1 and 2.1 to 2.3) -/

theorem test_encode_full_red :
    nextMeets (exec (.encode [red]) State.reset)
      (fun t => t.returned == some ([0x00000000#32, 0xFF0000FF#32, 0x00000000#32].flatMap bits32)) = true := by decide
theorem test_encode_empty :
    nextMeets (exec (.encode []) State.reset) (fun t => t.returned == some (List.replicate 64 false)) = true := by decide
theorem test_emitStart : nextMeets (exec .emitStart State.reset) (fun t => t.words == [0x00000000#32]) = true := by decide
theorem test_emitPixel_masks :
    nextMeets (exec (.emitPixel { brightness := 7, red := 256, green := 257, blue := 511 }) State.reset)
      (fun t => t.words == [0xE7FF0100#32]) = true := by decide
theorem test_emitPixel_order :
    nextMeets (exec (.emitPixel { brightness := 5, red := 0xAA, green := 0x55, blue := 0x0F }) State.reset)
      (fun t => t.words == [0xE50F55AA#32]) = true := by decide
theorem test_emitLatch_64 :
    nextMeets (exec (.emitLatch 64) State.reset) (fun t => t.words == [0x00000000#32]) = true := by decide
theorem test_emitLatch_65 :
    nextMeets (exec (.emitLatch 65) State.reset) (fun t => t.words == [0x00000000#32, 0x00000000#32]) = true := by decide
theorem test_latch_counts :
    [0, 64, 65, 100, 128, 129, 192, 193, 1000].map latchCount = [1, 1, 2, 2, 2, 3, 3, 4, 16] := by decide
theorem test_frame_bits :
    [0, 31, 32, 33, 34, 35, 36, 39, 40, 63, 64, 95].map
        (frameBit [{ brightness := 1, red := 0x12, green := 0x34, blue := 0x56 }]) =
      [false, false, true, true, true, false, false, true, false, false, false, false] := by decide
theorem test_decodeWords :
    decodeWords [0x00000000#32, 0xF0204080#32, 0xFF030201#32, 0x00000000#32] =
      some [{ brightness := 16, red := 0x80, green := 0x40, blue := 0x20 },
        { brightness := 31, red := 1, green := 2, blue := 3 }] := by decide
theorem test_decodeWords_rejects :
    decodeWords [0x00000000#32, 0xFF0000FF#32, 0x00000000#32, 0x00000000#32] = none ∧
      decodeWords [0x00000001#32, 0xFF0000FF#32, 0x00000000#32] = none ∧
      decodeWords [0x00000000#32, 0xFF0000FF#32, 0x12345678#32] = none := by decide

/-! ### The driver (examples of R112 to R119, 95_test_vectors.md 2.4 to 2.6) -/

theorem test_transmit_empty :
    nextMeets (exec (.transmit (.bits []) { id := 1 } { id := 2 }) State.reset)
      (fun t => t.result == some .ok && t.phase == .idle && t.trace == []) = true := by decide
theorem test_transmit_words_msb_first :
    nextMeets (exec (.transmit (.words [0x80000000#32]) { id := 1 } { id := 2 }) State.reset)
      (fun t => t.fr == true :: List.replicate 31 false && t.phase == .data && t.i == 0 && t.result == none) = true := by
  decide
/-- R114's example: `fr = 0b1`, `i = 0` issues `11` and gives `dat = High`, `phase = CLK_HI`. -/
theorem test_drvData :
    nextMeets (exec (.drvData true) (at' .data [true] 0 [.ok]))
      (fun t => t.dat == .high && t.phase == .clkHi &&
        t.trace == [{ line := .data, handle := { id := 6 }, level := .high, answer := .ok }]) = true := by decide
theorem test_drvData_fails :
    nextMeets (exec (.drvData false) (at' .data [true, false, true] 1 [fail]))
      (fun t => t.dat == .unknown && t.phase == .rstClk && t.pend == some (failure 1 .data)) = true := by decide
theorem test_drvClkRise :
    nextMeets (exec .drvClkRise (at' .clkHi [true] 0 [.ok]))
      (fun t => t.clk == .high && t.phase == .clkLo &&
        t.trace == [{ line := .clock, handle := { id := 5 }, level := .high, answer := .ok }]) = true := by decide
theorem test_drvClkRise_fails :
    nextMeets (exec .drvClkRise (at' .clkHi [true, false, true] 1 [fail]))
      (fun t => t.clk == .unknown && t.phase == .rstClk && t.pend == some (failure 1 .clock)) = true := by decide
/-- R116's example: `fr = 0b10`, `i = 0` gives `i = 1`, `phase = DATA`. -/
theorem test_drvClkFall :
    nextMeets (exec .drvClkFall (at' .clkLo [true, false] 0 [.ok]))
      (fun t => t.i == 1 && t.phase == .data && t.clk == .low) = true := by decide
theorem test_drvClkFall_last :
    nextMeets (exec .drvClkFall (at' .clkLo [true] 0 [.ok])) (fun t => t.i == 0 && t.phase == .tail) = true ∧
      nextMeets (exec .drvClkFall (at' .clkLo [false] 0 [.ok])) (fun t => t.phase == .idle && t.result == some .ok) = true := by
  decide
theorem test_drvTail :
    nextMeets (exec .drvTail (at' .tail [true] 0 [.ok]))
      (fun t => t.dat == .low && t.phase == .idle && t.result == some .ok) = true := by decide
theorem test_drvTail_fails :
    nextMeets (exec .drvTail (at' .tail [true, false, true] 2 [fail]))
      (fun t => t.pend == some (failure 2 .data) && t.phase == .rstClk) = true := by decide
theorem test_drvRstClk_ignores_failure :
    nextMeets (exec .drvRstClk (at' .rstClk [true] 0 [fail])) (fun t => t.clk == .unknown && t.phase == .rstDat) = true := by
  decide
theorem test_drvRstDat_reports :
    nextMeets (exec .drvRstDat ((at' .rstDat [true] 0 [fail]).abort 0 .clock Cause.base |>.goto .rstDat))
      (fun t => t.dat == .unknown && t.result == some (.err (failure 0 .clock)) && t.pend == none && t.phase == .idle) =
      true := by decide
theorem test_outOfPhase : refusedBy (exec .drvTail State.reset) .outOfPhase = true := by decide
theorem test_idle_waits : nextMeets (step State.reset) (fun t => t == State.reset) = true := by decide

/-- 95_test_vectors.md 2.7, first row: after `11 01 00 10 01!` the receiver sampled `1 0` or `1`. -/
theorem test_samples_failed_clock_high :
    sampleChoices .low .low
        [{ line := .data, handle := { id := 6 }, level := .high, answer := .ok },
          { line := .clock, handle := { id := 5 }, level := .high, answer := .ok },
          { line := .clock, handle := { id := 5 }, level := .low, answer := .ok },
          { line := .data, handle := { id := 6 }, level := .low, answer := .ok },
          { line := .clock, handle := { id := 5 }, level := .high, answer := fail },
          { line := .clock, handle := { id := 5 }, level := .low, answer := .ok },
          { line := .data, handle := { id := 6 }, level := .low, answer := .ok }] =
      [[true, false], [true]] := by decide

/-! ### A witness for the hypotheses of each obligation -/

theorem witness_LatchIsExactlyTheMinimum :
    (64 ≤ 64) ∧ (1 ≤ 1 ∧ 64 * (1 - 1) + 1 ≤ 64 ∧ 64 ≤ 64 * 1) ∧ (1 ≤ 2 ∧ 64 * (2 - 1) + 1 ≤ 65 ∧ 65 ≤ 64 * 2) := by decide
/-- The state after reset of a block that takes strips of at most `n` pixels and frames of at most `2^w` bits. -/
def bounded (n w : Nat) : State := { at' .idle [] 0 [] with params := { nMax := some n, wIdx := some w } }
theorem test_encode_refuses_above_nMax : refusedBy (exec (.encode [red, red]) (bounded 1 7)) .stripTooLong = true := by
  decide
theorem test_transmit_refuses_above_wIdx :
    refusedBy (exec (.transmit (.bits [true, true, true]) { id := 1 } { id := 2 }) (bounded 1 1)) .frameTooLong = true := by
  decide
/-- One pixel has 96 bits, which seven bits number; the bounds met exactly are accepted. -/
theorem witness_bounds :
    (bounded 1 7).params.acceptsStrip [red].length = true ∧ (bounded 0 6).params.acceptsStrip ([] : Strip).length = true ∧
      (bounded 1 7).params.acceptsFrame (frameLength 1) = true ∧ (bounded 0 6).params.acceptsFrame (frameLength 0) = true ∧
      (bounded 0 6).params.acceptsFrame 65 = false := by decide
theorem witness_FrameBitClosedForm : 0 < frameLength 0 ∧ 63 < frameLength [red].length ∧ 95 < frameLength 1 := by decide
theorem witness_EmittersBuildTheEncodedFrame :
    (calling (.emitStart :: ([red].map Instr.emitPixel ++ [.emitLatch 1])) []).phase = .idle ∧
      (calling (.emitStart :: ([red].map Instr.emitPixel ++ [.emitLatch 1])) []).events = [] ∧
      (calling (.emitStart :: ([red].map Instr.emitPixel ++ [.emitLatch 1])) []).cmds =
        (.emitStart :: ([red].map Instr.emitPixel ++ [.emitLatch [red].length])) ++ [] := by decide
theorem witness_EmitLatchGivesZeroWords : 64 ≤ 64 ∧ 65 = 65 := by decide
theorem witness_FramesAgreeExactlyUpToMasking :
    [red].map Pixel.masked = [{ red with brightness := 255 }].map Pixel.masked ∧ red ≠ { red with brightness := 255 } ∧
      encodeFrame [red] = encodeFrame [{ red with brightness := 255 }] := by decide
theorem witness_DecodeAcceptsOnlyEncodedFrames : decodeFrame (List.replicate 64 false) = some [] := by decide
theorem witness_EveryWordIsStartPixelOrLatch :
    (frameWords [red])[0]? = some 0#32 ∧ (frameWords [red])[1]? = some 0xFF0000FF#32 ∧
      (frameWords [red])[2]? = some 0#32 := by decide
theorem witness_DecodeInvertsEncode :
    (contextOf (.emitLatch 65) = some (.frameBody 65) ∧ encode (.emitLatch 65) = some (List.replicate 8 0#8)) ∧
      (contextOf (.drvData true) = some (.call .data) ∧ encode (.drvData true) = some [3#8]) ∧
      (red.brightness < 32 ∧ red.red < 256 ∧ red.green < 256 ∧ red.blue < 256) := by decide
theorem witness_DecodeAcceptsOnlyEncodings : decode (.call .tail) [2#8, 1#8] = .ok .drvTail [1#8] := by decide
theorem witness_MicroStepIssuesTheCallItsCodeNames :
    contextOf (.drvData true) = some (.call .data) ∧ ∃ t, exec (.drvData true) (at' .data [true] 0 [.ok]) = .next t :=
  ⟨rfl, _, rfl⟩
theorem witness_TransmitStarts :
    State.reset.phase = .idle ∧ ({ id := 1 } : Handle) ≠ { id := 2 } ∧
      List.replicate 32 false = [0#32].flatMap bits32 ∧ List.replicate 32 false ≠ [] := by decide
theorem witness_TransmitStarts_returned :
    ∃ t, exec (.encode []) State.reset = .next t ∧ t.phase = .idle ∧ t.returned = some (encodeFrame []) :=
  ⟨_, rfl, rfl, rfl⟩
theorem witness_SecondTransmitIsRefused :
    (at' .clkHi [true] 0 []).phase ≠ .idle ∧
      ({ at' .clkHi [true] 0 [] with
        events := [{ after := 0, kind := .transmit (.bits []) { id := 1 } { id := 2 } }] } : State).events =
        { after := 0, kind := .transmit (.bits []) { id := 1 } { id := 2 } } :: [] := by decide
theorem witness_UnusableOperandsAreRefused :
    State.reset.phase = .idle ∧ ({ id := 1 } : Handle) ≠ { id := 2 } ∧ State.reset.returned = none := by decide
theorem witness_SetLevelSetsItsLine :
    (at' .data [true] 0 [.ok]).answerAt 0 = .ok ∧ (at' .data [true] 0 [fail]).answerAt 0 = .err Cause.base := by decide
theorem witness_SequencerInv_data : (at' .data [true] 0 [.ok]).SequencerInv :=
  ⟨by decide, by decide, rfl, rfl⟩
theorem witness_WireInv_data : (at' .data [true] 0 [.ok]).WireInv :=
  ⟨witness_SequencerInv_data, rfl, rfl, rfl⟩
theorem witness_DrvDataPutsTheBit :
    (at' .data [true] 0 [.ok]).phase = .data ∧ (at' .data [true] 0 [.ok]).fr[0]? = some true ∧
      (at' .data [true] 0 [.ok]).startClk = .low ∧ (at' .data [true] 0 [.ok]).WireInv :=
  ⟨rfl, rfl, rfl, witness_WireInv_data⟩
/-- The state after DRV_DATA of the witness before. -/
def risen : State := ((at' .data [true] 0 [.ok, .ok, .ok]).setLevel .data .high).goto .clkHi
theorem witness_WireInv_clkHi : risen.WireInv :=
  ⟨⟨by decide, by decide, rfl, rfl⟩, ⟨by decide, by intro b hb; cases hb; rfl⟩, rfl, rfl⟩
theorem witness_DrvClkRiseRaisesTheClock :
    risen.phase = .clkHi ∧ risen.answerAt 0 = .ok ∧ (at' .clkHi [true] 0 [fail]).answerAt 0 = .err Cause.base ∧
      risen.WireInv ∧ risen.fr[risen.i]? = some true := ⟨rfl, by decide, by decide, witness_WireInv_clkHi, rfl⟩
theorem witness_DrvClkFallEndsTheBitPair :
    (at' .clkLo [true] 0 [.ok]).phase = .clkLo ∧ (at' .clkLo [true] 0 [.ok]).fr[0]? = some true ∧
      (at' .clkLo [true] 0 [.ok]).answerAt 0 = .ok ∧ ¬ 0 + 1 < [true].length ∧ 0 + 1 < [true, false].length ∧
      (at' .clkLo (encodeFrame []) 63 [.ok]).fr = encodeFrame [] ∧
      (at' .clkLo (encodeFrame []) 63 [.ok]).fr[63]? = some false := by decide
theorem witness_DrvTailReturnsDataLow :
    (at' .tail [true] 0 [.ok]).phase = .tail ∧ (at' .tail [true] 0 [.ok]).answerAt 0 = .ok ∧
      (at' .tail [true] 0 [fail]).answerAt 0 = .err Cause.base := by decide
theorem witness_DrvRstClkIgnoresItsOutcome : (at' .rstClk [true] 0 []).phase = .rstClk := rfl
/-- A block restoring after a failed clock-high call of bit-pair 0. -/
def restoring (answers : List Answer) : State := (at' .clkHi [true] 0 answers).abort 0 .clock Cause.base
theorem witness_DrvRstDatReportsTheError :
    ((restoring []).goto .rstDat).phase = .rstDat ∧ ((restoring []).goto .rstDat).pend = some (failure 0 .clock) := by
  decide
theorem witness_MicroStepOutsideItsPhaseIsRefused :
    contextOf .drvTail = some (.call .tail) ∧ State.reset.phase ≠ .tail := by decide
theorem witness_RegistersHaveTheirWriters : ∃ t, exec .drvClkRise risen = .next t ∧ t.clk ≠ risen.clk :=
  ⟨_, rfl, by decide⟩
/-- A state with a reset coming after one step. -/
def resetComing (after : Nat) (ph : Phase) : State :=
  { clk := .low, dat := .low, phase := ph, fr := [true], i := 0, pend := none, result := none
    returned := none, words := [], clockLine := { id := 5 }, dataLine := { id := 6 }
    startClk := .low, startDat := .low, trace := [], answers := [.ok], draws := 0, cmds := [.emitStart]
    events := [{ after := after, kind := .reset true }], params := Config.params }
theorem witness_StepRunsTheDecodedInstruction :
    (risen.events = [] ∧ risen.nextCode = some 0b01#8 ∧
        decode (.call risen.phase) [0b01#8] = .ok .drvClkRise []) ∧
      ((resetComing 1 .idle).events = { after := 0 + 1, kind := .reset true } :: [] ∧
        (resetComing 1 .idle).phase = .idle ∧ (resetComing 1 .idle).cmds = .emitStart :: []) ∧
      (State.reset.phase = .idle ∧ State.reset.cmds = []) := by decide
theorem witness_NextCallCodeDecodes : risen.SequencerInv ∧ risen.phase ≠ .idle := ⟨witness_WireInv_clkHi.1, by decide⟩
theorem witness_PlacedWordRunsNext : decodeTableWord 8 0b10 = some (.drvData false) := by decide
theorem witness_ResetEvent :
    (resetComing 0 .idle).events = { after := 0, kind := .reset true } :: [] ∧ (resetComing 0 .idle).phase = .idle ∧
      (resetComing 0 .clkLo).phase ≠ .idle := by decide
theorem witness_StepKeepsTheInvariants : risen.WireInv ∧ ∃ t, step risen = .next t := ⟨witness_WireInv_clkHi, _, rfl⟩
theorem witness_SequencerStepsNeverFault : risen.SequencerInv ∧ risen.phase ≠ .idle ∧ risen.dueEvent = none :=
  ⟨witness_WireInv_clkHi.1, by decide, by decide⟩
theorem witness_DataMovesOnlyWhileTheClockIsLow :
    (at' .data [true] 0 [.ok]).WireInv ∧ (at' .data [true] 0 [.ok]).dueEvent = none ∧
      ∃ t, step (at' .data [true] 0 [.ok]) = .next t ∧
        t.trace = (at' .data [true] 0 [.ok]).trace ++
          [{ line := .data, handle := { id := 6 }, level := .high, answer := .ok }] :=
  ⟨witness_WireInv_data, rfl, _, rfl, rfl⟩
/-- DRV_CLK_RISE of the second and last bit-pair that a one-bit counter can number. -/
def lastIndex (a : Answer) : State := { at' .clkHi [true, false] 1 [a] with params := { nMax := none, wIdx := some 1 } }
theorem witness_IndexesFitTheCounter : (lastIndex fail).IndexFits ∧
    ∃ t, step (lastIndex fail) = .next t ∧ t.pend = some (failure 1 .clock) := by
  refine ⟨⟨by decide, fun w hw => ?_⟩, _, rfl, rfl⟩
  have one : w = 1 := Option.some.inj hw.symm
  exact ⟨by rw [one]; decide, by simp [lastIndex, at'], by simp [lastIndex, at']⟩
theorem witness_OpenBoundsAreArguments :
    (bounded 1 1).phase = .idle ∧ ({ id := 1 } : Handle) ≠ { id := 2 } ∧
      resolveFrame (bounded 1 1).returned (.bits [true, true, true]) = some [true, true, true] ∧ 2 ^ 1 < 3 := by decide
theorem witness_FrameIsFixedDuringTransmit : risen.phase ≠ .idle ∧ ∃ t, step risen = .next t := ⟨by decide, _, rfl⟩
theorem witness_ResultIsWrittenOnReturn :
    ∃ t, step (at' .tail [true] 0 [.ok]) = .next t ∧ t.result ≠ (at' .tail [true] 0 [.ok]).result :=
  ⟨_, rfl, by decide⟩
/-- An idle block whose last TRANSMIT failed and whose caller now calls TRANSMIT of `f`. -/
def afterFailure (f : Frame) : State :=
  { calling [.transmit (.bits f) { id := 5 } { id := 6 }] [] with result := some (.err (failure 0 .data)) }
theorem witness_ResultIsWrittenOnReturn_operations :
    ((afterFailure []).TakesTransmit (.bits []) { id := 5 } { id := 6 } ∧
        ∃ t, step (afterFailure []) = .next t ∧ t.result = some .ok) ∧
      ((afterFailure [true]).TakesTransmit (.bits [true]) { id := 5 } { id := 6 } ∧
        ∃ t, step (afterFailure [true]) = .next t ∧ t.result = none) ∧
      (resetComing 0 .clkLo).TakesReset :=
  ⟨⟨⟨rfl, .inr ⟨rfl, _, rfl⟩⟩, _, rfl, rfl⟩, ⟨⟨rfl, .inr ⟨rfl, _, rfl⟩⟩, _, rfl, rfl⟩, _, _, rfl⟩
theorem witness_FailedCallEntersRestoration :
    (at' .data [true] 0 [fail]).SequencerInv ∧ (at' .data [true] 0 [fail]).dueEvent = none ∧
      (at' .data [true] 0 [fail]).answerAt 0 = .err Cause.base :=
  ⟨⟨by decide, by decide, rfl, rfl⟩, rfl, by decide⟩
theorem witness_RestorationReturnsTheFirstError :
    (restoring []).phase = .rstClk ∧ (restoring []).events = [] ∧ (restoring []).pend = some (failure 0 .clock) := by
  decide
/-- A caller of `TRANSMIT 0b1`. -/
def oneBit (answers : List Answer) : State := calling [.transmit (.bits [true]) { id := 5 } { id := 6 }] answers
theorem witness_CallsTransmit (answers : List Answer) : (oneBit answers).CallsTransmit [true] [] :=
  ⟨rfl, rfl, rfl, .bits [true], { id := 5 }, { id := 6 }, rfl, by decide, rfl⟩
theorem witness_IdleLinesAtReturn_ok :
    (at' .tail [true] 0 [.ok]).WireInv ∧ (at' .tail [true] 0 [.ok]).dueEvent = none ∧
      ∃ t, step (at' .tail [true] 0 [.ok]) = .next t ∧ t.phase = .idle :=
  ⟨⟨⟨by decide, rfl, rfl, rfl, rfl⟩, rfl, rfl, rfl⟩, rfl, _, rfl, rfl⟩
theorem witness_IdleLinesAtReturn_empty :
    State.reset.phase = .idle ∧ ({ id := 5 } : Handle) ≠ { id := 6 } ∧
      resolveFrame State.reset.returned (.words []) = some [] := by decide
/-- 95_test_vectors.md 2.5: `11! 00 10`. -/
theorem witness_IdleLinesAtReturn_err :
    ∃ t, ReturnsAfter 4 (oneBit [fail, .ok, .ok]) t ∧ t.result = some (.err (failure 0 .data)) := by
  refine ⟨_, ⟨rfl, by decide, rfl, ?_⟩, rfl⟩
  intro k u h0 h4 hu
  match k, h0, h4 with
  | 1, _, _ => cases hu; decide
  | 2, _, _ => cases hu; decide
  | 3, _, _ => cases hu; decide
theorem witness_MicroStepsAreTheSequentialForm :
    (oneBit []).phase = .idle ∧ (oneBit []).events = [] ∧
      (oneBit []).cmds = .transmit (.bits [true]) { id := 5 } { id := 6 } :: [] ∧
      ({ id := 5 } : Handle) ≠ { id := 6 } ∧ resolveFrame (oneBit []).returned (.bits [true]) = some [true] ∧
      (oneBit []).params.acceptsFrame 1 = true := by decide
theorem witness_CallCounts_ok :
    (oneBit [.ok, .ok, .ok, .ok]).CallsTransmit [true] [] ∧
      ∀ k, k < okCalls [true] → (oneBit [.ok, .ok, .ok, .ok]).answerAt k = .ok :=
  ⟨witness_CallsTransmit _, by decide⟩
/-- The tail call, call 4 of `0b1`, is the first to fail. -/
theorem witness_CallCounts_tail_fails :
    1 ≤ 4 ∧ 4 ≤ okCalls [true] ∧ (∀ k, k < 3 → (oneBit [.ok, .ok, .ok, fail]).answerAt k = .ok) ∧
      (oneBit [.ok, .ok, .ok, fail]).answerAt (4 - 1) = .err Cause.base := by decide
theorem witness_ReceiverSamplesExactlyTheFrame : (oneBit [.ok, .ok, .ok, .ok]).clk = .low := rfl
/-- A caller of ENCODE and TRANSMIT of the empty strip, every call answered `Ok`. -/
def emptyStrip : State :=
  calling [.encode [], .transmit .returned { id := 5 } { id := 6 }] (List.replicate 192 .ok)
theorem answers_all_ok (cmds : List Instr) (n k : Nat) (h : k < n) :
    (calling cmds (List.replicate n .ok)).answerAt k = .ok := by
  simp [calling, at', State.answerAt, State.withCmds, h]
theorem witness_EncoderFrameTransmits :
    (calling [.transmit (.bits (encodeFrame [])) { id := 5 } { id := 6 }] (List.replicate 192 .ok)).CallsTransmit
        (encodeFrame []) [] ∧
      ∀ k, k < 3 * frameLength ([] : Strip).length →
        (calling [.transmit (.bits (encodeFrame [])) { id := 5 } { id := 6 }] (List.replicate 192 .ok)).answerAt k =
          .ok :=
  ⟨⟨rfl, rfl, rfl, .bits (encodeFrame []), { id := 5 }, { id := 6 }, rfl, by decide, rfl⟩, fun k h => answers_all_ok _ _ k h⟩
theorem witness_PixelsReachTheWire :
    emptyStrip.phase = .idle ∧ emptyStrip.events = [] ∧ emptyStrip.clk = .low ∧ ({ id := 5 } : Handle) ≠ { id := 6 } ∧
      emptyStrip.cmds = .encode [] :: .transmit .returned { id := 5 } { id := 6 } :: [] ∧
      emptyStrip.params.acceptsStrip 0 = true ∧ emptyStrip.params.acceptsFrame (frameLength 0) = true ∧
      ∀ k, k < 3 * frameLength ([] : Strip).length → emptyStrip.answerAt k = .ok :=
  ⟨rfl, rfl, rfl, by decide, rfl, rfl, rfl, fun k h => answers_all_ok _ _ k h⟩

end Sys2Proof.Tests
end

section
/-! PROOFS. The scope statements (00_scope.md): what every step keeps, which steps cannot fault, and the bits that an
encoded strip puts on the wire. -/

namespace Sys2Proof.Machine

/-! ### The micro-step of each phase -/

theorem stepBlock_data {s : State} {b : Bool} (hp : s.phase = .data) (hb : s.fr[s.i]? = some b) :
    stepBlock s = .next (s.attempt .data (lvl b) s.i (·.goto .clkHi)) := by
  simp [stepBlock, State.select, hp, hb, exec, execDrvData, inPhase]

theorem stepBlock_clkHi {s : State} (hp : s.phase = .clkHi) :
    stepBlock s = .next (s.attempt .clock .high s.i (·.goto .clkLo)) := by
  simp [stepBlock, State.select, hp, exec, execDrvClkRise, inPhase]

theorem stepBlock_clkLo {s : State} {b : Bool} (hp : s.phase = .clkLo) (hb : s.fr[s.i]? = some b) :
    stepBlock s = .next (s.attempt .clock .low s.i (State.endBitPair b)) := by
  simp [stepBlock, State.select, hp, hb, exec, execDrvClkFall, inPhase]

theorem stepBlock_tail {s : State} (hp : s.phase = .tail) :
    stepBlock s = .next (s.attempt .data .low (s.fr.length - 1) (·.finish .ok)) := by
  simp [stepBlock, State.select, hp, exec, execDrvTail, inPhase]

theorem stepBlock_rstClk {s : State} (hp : s.phase = .rstClk) :
    stepBlock s = .next ((s.setLevel .clock .low).goto .rstDat) := by
  simp [stepBlock, State.select, hp, exec, execDrvRstClk, inPhase]

theorem stepBlock_rstDat {s : State} {e : LineIOError} (hp : s.phase = .rstDat) (he : s.pend = some e) :
    stepBlock s = .next ((s.setLevel .data .low).report e) := by
  simp [stepBlock, State.select, hp, he, exec, execDrvRstDat, inPhase]

/-! ### Invariants of a step -/

/-- What `exec`, a reset and the coming inputs keep, every step keeps: an event that passes or lands and a call that is
taken up change only `events` and `cmds`. -/
theorem step_keeps {P : State → Prop} (hexec : ∀ i s t, P s → exec i s = .next t → P t)
    (hreset : ∀ s b, P s → P (s.resetBlock b))
    (hinput : ∀ (s : State) cmds events, P s → P { s with cmds := cmds, events := events })
    {s t : State} (hs : P s) (h : step s = .next t) : P t := by
  have htick : P s.tickEvents := by
    unfold State.tickEvents
    split
    · exact hs
    · exact hinput s s.cmds _ hs
  obtain ⟨b, es, -, rfl⟩ | ⟨a, c, d, es, -, h⟩ | ⟨-, -, -, rfl⟩ | ⟨-, -, i, rest, -, h⟩ | ⟨-, -, i, -, h⟩ := step_cases h
  · exact hreset _ b (hinput s s.cmds es hs)
  · exact hexec _ _ _ (hinput s s.cmds es hs) h
  · exact htick
  · exact hexec _ _ _ (hinput _ rest _ htick) h
  · exact hexec _ _ _ htick h

/-! ### The open parameters -/

theorem State.endBitPair_params (b : Bool) (s : State) : (s.endBitPair b).params = s.params := by
  obtain ⟨-, h⟩ | ⟨-, -, h⟩ | ⟨-, -, h⟩ := s.endBitPair_cases b <;> simp [h]

theorem State.attempt_params {s : State} {l : Line} {v : Level} {k : Nat} {onOk : State → State}
    (honOk : ∀ u, (onOk u).params = u.params) : (s.attempt l v k onOk).params = s.params := by
  obtain ⟨-, h⟩ | ⟨c, -, h⟩ := s.attempt_cases l v k onOk <;> simp [h, honOk]

theorem exec_params {i : Instr} {s t : State} (h : exec i s = .next t) : t.params = s.params := by
  by_cases hc : ∃ ph, contextOf i = some (.call ph)
  · obtain ⟨ph, hc⟩ := hc
    obtain ⟨-, ⟨b, -, -, -, rfl⟩ | ⟨-, -, rfl⟩ | ⟨b, -, -, -, rfl⟩ | ⟨-, -, rfl⟩ | ⟨-, -, rfl⟩ | ⟨e, -, -, -, rfl⟩⟩ :=
      microStep_cases hc h
    · exact State.attempt_params fun _ => rfl
    · exact State.attempt_params fun _ => rfl
    · exact State.attempt_params (State.endBitPair_params b)
    · exact State.attempt_params fun _ => rfl
    · simp
    · simp
  · obtain ⟨a, c, d, f, -, -, -, -, -, rfl⟩ | ⟨r, w, rfl⟩ := operation_cases (not_exists.mp hc) h <;> rfl

theorem step_params {s t : State} (h : step s = .next t) : t.params = s.params :=
  step_keeps (P := fun u => u.params = s.params) (fun _ _ _ hu hx => (exec_params hx).trans hu) (fun _ _ hu => hu)
    (fun _ _ _ hu => hu) rfl h

theorem exec_encode_refused_iff (strip : Strip) (s : State) :
    exec (.encode strip) s = .refused .stripTooLong ↔ ¬ s.params.acceptsStrip strip.length = true := by
  simp only [exec, execEncode]
  split <;> simp_all

theorem exec_transmit_frameTooLong_iff {a : FrameArg} {c d : Handle} {f : Frame} {s : State} (hp : s.phase = .idle)
    (hcd : c ≠ d) (hf : resolveFrame s.returned a = some f) :
    exec (.transmit a c d) s = .refused .frameTooLong ↔ ¬ s.params.acceptsFrame f.length = true := by
  simp only [exec, execTransmit, hp, hcd, hf]
  split <;> simp_all

/-- Settles O54: each operation refuses exactly what its bound does not accept, and no step writes `params`. -/
theorem openBoundsAreArguments : Obligations.OpenBoundsAreArguments := by
  refine ⟨fun strip s => ⟨?_, fun hn => ?_⟩, fun a c d f s hp hcd hf => ?_, fun s t h => step_params h, rfl⟩
  · simp [exec_encode_refused_iff, Config.Params.acceptsStrip_iff]
  · exact ⟨_, exec_encode_of_accepts (by simp [Config.Params.acceptsStrip_iff, hn])⟩
  · simp [exec_transmit_frameTooLong_iff hp hcd hf, Config.Params.acceptsFrame_iff]

/-! ### Frame positions and `W_IDX` -/

/-- `k` fits in `W_IDX` bits (R6). -/
def State.Numbers (s : State) (k : Nat) : Prop := ∀ w, s.params.wIdx = some w → k < 2 ^ w

theorem State.numbers_of_lt {s : State} {k : Nat} (h : s.params.acceptsFrame s.fr.length = true)
    (hk : k < s.fr.length) : s.Numbers k :=
  fun w hw => hk.trans_le (Config.Params.acceptsFrame_iff.mp h w hw)

/-- The position that DRV_TAIL reports, also where it is `0 - 1`. -/
theorem State.numbers_pred {s : State} (h : s.params.acceptsFrame s.fr.length = true) :
    s.Numbers (s.fr.length - 1) := fun w hw => by
  have := Config.Params.acceptsFrame_iff.mp h w hw
  have := Nat.two_pow_pos w
  omega

theorem State.indexFits_iff {s : State} :
    s.IndexFits ↔ s.params.acceptsFrame s.fr.length = true ∧ s.Numbers s.i ∧
      (∀ e, s.pend = some e → s.Numbers e.bitIndex) ∧ ∀ e, s.result = some (.err e) → s.Numbers e.bitIndex := by
  unfold State.IndexFits State.Numbers
  constructor
  · rintro ⟨hf, h⟩
    exact ⟨hf, fun w hw => (h w hw).1, fun e he w hw => (h w hw).2.1 e he, fun e he w hw => (h w hw).2.2 e he⟩
  · rintro ⟨hf, hi, hpend, hresult⟩
    exact ⟨hf, fun w hw => ⟨hi w hw, fun e he => hpend e he w hw, fun e he => hresult e he w hw⟩⟩

theorem State.IndexFits.setLevel {s : State} (h : s.IndexFits) (l : Line) (v : Level) : (s.setLevel l v).IndexFits := by
  cases l <;> exact h

theorem State.IndexFits.finish_ok {s : State} (h : s.IndexFits) : (s.finish .ok).IndexFits := by
  obtain ⟨hf, hi, hpend, -⟩ := indexFits_iff.mp h
  exact indexFits_iff.mpr ⟨hf, hi, hpend, by simp⟩

theorem State.IndexFits.abort {s : State} (h : s.IndexFits) {k : Nat} (hk : s.Numbers k) (l : Line) (c : Cause) :
    (s.abort k l c).IndexFits := by
  obtain ⟨hf, hi, -, hresult⟩ := indexFits_iff.mp h
  refine indexFits_iff.mpr ⟨hf, hi, ?_, hresult⟩
  rintro e ⟨⟩
  exact hk

theorem State.IndexFits.report {s : State} (h : s.IndexFits) {e : LineIOError} (he : s.pend = some e) :
    (s.report e).IndexFits := by
  obtain ⟨hf, hi, hpend, -⟩ := indexFits_iff.mp h
  refine indexFits_iff.mpr ⟨hf, hi, by simp, ?_⟩
  rintro e' ⟨⟩
  exact hpend e he

theorem State.IndexFits.endBitPair {s : State} (h : s.IndexFits) (b : Bool) : (s.endBitPair b).IndexFits := by
  obtain ⟨hlt, heq⟩ | ⟨-, -, heq⟩ | ⟨-, -, heq⟩ := s.endBitPair_cases b <;> rw [heq]
  · obtain ⟨hf, -, hpend, hresult⟩ := indexFits_iff.mp h
    exact indexFits_iff.mpr ⟨hf, numbers_of_lt (s := s) hf hlt, hpend, hresult⟩
  · exact h
  · exact h.finish_ok

theorem State.IndexFits.attempt {s : State} (h : s.IndexFits) {k : Nat} (hk : s.Numbers k) (l : Line) (v : Level)
    {onOk : State → State} (honOk : ∀ u : State, u.IndexFits → (onOk u).IndexFits) :
    (s.attempt l v k onOk).IndexFits := by
  obtain ⟨-, heq⟩ | ⟨c, -, heq⟩ := s.attempt_cases l v k onOk <;> rw [heq]
  · exact honOk _ (h.setLevel l v)
  · exact (h.setLevel l v).abort (by simpa [State.Numbers] using hk) l c

theorem State.IndexFits.startTransmit {s : State} {f : Frame} (hf : s.params.acceptsFrame f.length = true)
    (c d : Handle) : (s.startTransmit f c d).IndexFits := by
  refine indexFits_iff.mpr ⟨hf, fun w _ => Nat.two_pow_pos w, by simp, ?_⟩
  simp only [State.startTransmit_result]
  split <;> simp

theorem State.IndexFits.resetBlock (s : State) (b : Bool) : (s.resetBlock b).IndexFits :=
  indexFits_iff.mpr ⟨by simp, fun w _ => Nat.two_pow_pos w, by simp, by simp⟩

theorem exec_keeps_indexFits {i : Instr} {s t : State} (hs : s.IndexFits) (h : exec i s = .next t) : t.IndexFits := by
  obtain ⟨hf, hi, -, -⟩ := State.indexFits_iff.mp hs
  by_cases hc : ∃ ph, contextOf i = some (.call ph)
  · obtain ⟨ph, hc⟩ := hc
    obtain ⟨-, ⟨b, -, -, -, rfl⟩ | ⟨-, -, rfl⟩ | ⟨b, -, -, -, rfl⟩ | ⟨-, -, rfl⟩ | ⟨-, -, rfl⟩ | ⟨e, -, -, he, rfl⟩⟩ :=
      microStep_cases hc h
    · exact hs.attempt hi _ _ fun _ hu => hu
    · exact hs.attempt hi _ _ fun _ hu => hu
    · exact hs.attempt hi _ _ fun _ hu => hu.endBitPair b
    · exact hs.attempt (State.numbers_pred hf) _ _ fun _ hu => hu.finish_ok
    · exact hs.setLevel _ _
    · exact (hs.setLevel _ _).report he
  · obtain ⟨a, c, d, f, -, -, -, -, hb, rfl⟩ | ⟨r, w, rfl⟩ := operation_cases (not_exists.mp hc) h
    · exact .startTransmit hb c d
    · exact hs

/-- Settles O55: a position enters a register only as 0, as a bit-pair of the latched frame, or from `i` and `pend`. -/
theorem indexesFitTheCounter : Obligations.IndexesFitTheCounter :=
  ⟨fun _ _ => step_keeps (fun _ _ _ => exec_keeps_indexFits) (fun s b _ => .resetBlock s b) (fun _ _ _ hs => hs),
    State.indexFits_iff.mpr ⟨by simp [State.reset], fun w _ => Nat.two_pow_pos w, by simp [State.reset],
      by simp [State.reset]⟩⟩

/-! ### No fault -/

theorem State.SequencerInv.tickEvents {s : State} (h : s.SequencerInv) : s.tickEvents.SequencerInv := by
  simpa [State.SequencerInv] using h

/-- Under the invariant the micro-step of every busy phase has what it needs: a bit `fr[i]`, a pending error. -/
theorem stepBlock_progresses {s : State} (h : s.SequencerInv) (hp : s.phase ≠ .idle) : ∃ t, stepBlock s = .next t := by
  obtain ⟨-, h⟩ := h
  cases hph : s.phase with
  | idle => exact absurd hph hp
  | data =>
    simp only [hph] at h
    exact ⟨_, stepBlock_data hph (List.getElem?_eq_getElem h.1)⟩
  | clkHi => exact ⟨_, stepBlock_clkHi hph⟩
  | clkLo =>
    simp only [hph] at h
    exact ⟨_, stepBlock_clkLo hph (List.getElem?_eq_getElem h.1)⟩
  | tail => exact ⟨_, stepBlock_tail hph⟩
  | rstClk => exact ⟨_, stepBlock_rstClk hph⟩
  | rstDat =>
    simp only [hph] at h
    obtain ⟨⟨e, he, -⟩, -⟩ := h
    exact ⟨_, stepBlock_rstDat hph he⟩

theorem execTransmit_ne_fault (a : FrameArg) (c d : Handle) (s : State) (f : Fault) :
    execTransmit a c d s ≠ .fault f := by
  unfold execTransmit
  split
  · simp
  split
  · simp
  split
  · split <;> simp
  · simp

/-- In IDLE every micro-step is out of its phase, and no operation faults. -/
theorem exec_ne_fault_of_idle {s : State} (hp : s.phase = .idle) (i : Instr) (f : Fault) : exec i s ≠ .fault f := by
  cases i with
  | encode strip => simp only [exec, execEncode]; split <;> simp
  | transmit a c d => exact execTransmit_ne_fault a c d s f
  | emitStart | emitPixel | emitLatch => simp [exec, execEmitStart, execEmitPixel, execEmitLatch]
  | drvData | drvClkRise | drvClkFall | drvTail | drvRstClk | drvRstDat =>
    simp [exec, execDrvData, execDrvClkRise, execDrvClkFall, execDrvTail, execDrvRstClk, execDrvRstDat, inPhase, hp]

theorem takeEvent_ne_fault (e : EventKind) (s : State) (f : Fault) : takeEvent e s ≠ .fault f := by
  cases e with
  | reset b => simp [takeEvent]
  | transmit a c d => exact execTransmit_ne_fault a c d s f

theorem stepBlock_ne_fault {s : State} (h : s.SequencerInv) (f : Fault) : stepBlock s ≠ .fault f := by
  by_cases hp : s.phase = .idle
  · cases hc : s.cmds with
    | nil => simp [stepBlock, State.select, hp, hc]
    | cons i rest =>
      simpa [stepBlock, State.select, hp, hc] using exec_ne_fault_of_idle (s := s.withCmds rest) hp i f
  · obtain ⟨t, ht⟩ := stepBlock_progresses h hp
    simp [ht]

/-- Settles O39: an event never faults, and the block's own action progresses in every busy phase. -/
theorem sequencerStepsNeverFault : Obligations.SequencerStepsNeverFault := by
  intro s h
  refine ⟨fun f => ?_, fun hp hd => ?_⟩
  · unfold step
    split
    · exact takeEvent_ne_fault _ _ f
    · exact stepBlock_ne_fault h.tickEvents f
  · simpa [step, hd] using stepBlock_progresses h.tickEvents (by simpa using hp)

end Sys2Proof.Machine
end

section
/-! PROOFS. The pixels reach the wire (R2, R93, R124): DECODE inverts ENCODE, a TRANSMIT whose calls all succeed issues
the calls of its frame, and a receiver samples the frame from them. -/

namespace Sys2Proof.Machine

/-! ### DECODE inverts ENCODE -/

/-- The bits of a word up to position `k`, MSB first, are its top `k` bits as a number. -/
theorem foldl_getMsbD (w : Word) (k : Nat) (hk : k ≤ 32) :
    ((List.range k).map w.getMsbD).foldl (fun n b => 2 * n + b.toNat) 0 = w.toNat / 2 ^ (32 - k) := by
  induction k with
  | zero => simp [Nat.div_eq_of_lt w.isLt]
  | succ k ih =>
    have hpos : 32 - k = 31 - k + 1 := by omega
    have hbit : (w.getMsbD k).toNat = w.toNat / 2 ^ (31 - k) % 2 := by
      have : k < 32 := hk
      simp [BitVec.getMsbD, this, BitVec.getLsbD, Nat.toNat_testBit]
    rw [List.range_succ, List.map_append, List.foldl_append, ih (by omega), hpos, Nat.pow_succ,
      ← Nat.div_div_eq_div_mul]
    simp only [List.map_cons, List.map_nil, List.foldl_cons, List.foldl_nil, hbit]
    rw [show 32 - (k + 1) = 31 - k by omega]
    omega

theorem wordOfBits_bits32 (w : Word) : wordOfBits (bits32 w) = w := by
  simp [wordOfBits, bits32, foldl_getMsbD]

theorem frameToWords_flatMap_bits32 (ws : List Word) : frameToWords ws.length (ws.flatMap bits32) = ws := by
  induction ws with
  | nil => rfl
  | cons w ws ih => simp [frameToWords, wordOfBits_bits32, ih]

theorem pixelWord_toNat (p : Pixel) :
    (pixelWord p).toNat =
      7 * 2 ^ 29 + p.brightness % 32 * 2 ^ 24 + p.blue % 256 * 2 ^ 16 + p.green % 256 * 2 ^ 8 + p.red % 256 := by
  simp only [pixelWord, maskField, Config.briBits, Config.colBits, BitVec.toNat_ofNat]
  omega

@[simp] theorem isPixelWord_pixelWord (p : Pixel) : isPixelWord (pixelWord p) = true := by
  have hheader : (pixelWord p).extractLsb' 29 3 = Config.header := by
    apply BitVec.eq_of_toNat_eq
    rw [extractLsb'_toNat_div, pixelWord_toNat]
    simp only [Config.header, BitVec.toNat_ofNat]
    omega
  simp [isPixelWord, hheader]

@[simp] theorem isPixelWord_zero : isPixelWord 0#32 = false := by decide

@[simp] theorem pixelOfWord_pixelWord (p : Pixel) : pixelOfWord (pixelWord p) = p.masked := by
  simp only [pixelOfWord, Pixel.masked, maskField, Config.briBits, Config.colBits, extractLsb'_toNat_div,
    pixelWord_toNat, Pixel.mk.injEq]
  omega

/-- R92 cuts the words of a frame where R83 joined them: no latch word is a pixel word. -/
theorem decodeWords_frameWords (strip : Strip) : decodeWords (frameWords strip) = some (strip.map Pixel.masked) := by
  have hpixels : ∀ w ∈ strip.map pixelWord, isPixelWord w = true := by simp
  simp [decodeWords, frameWords, startWord, List.takeWhile_append_of_pos hpixels, List.dropWhile_append_of_pos hpixels,
    latchWords]

theorem encodeFrame_length (strip : Strip) : (encodeFrame strip).length = frameLength strip.length := by
  rw [encodeFrame, flatMap_bits32_length, frameWords_length, frameLength]

theorem decodeFrame_encodeFrame (strip : Strip) : decodeFrame (encodeFrame strip) = some (strip.map Pixel.masked) := by
  have hlen : (encodeFrame strip).length = 32 * (frameWords strip).length := flatMap_bits32_length _
  have hmin : 2 ≤ (frameWords strip).length := by
    have := latchCount_pos strip.length
    rw [frameWords_length]
    omega
  rw [decodeFrame, if_neg (by omega), hlen, Nat.mul_div_cancel_left _ (by decide), encodeFrame,
    frameToWords_flatMap_bits32, decodeWords_frameWords]

/-- The last word is a latch word, so the last bit is 0 and a TRANSMIT of the frame has no tail call. -/
theorem encodeFrame_getLast? (strip : Strip) : (encodeFrame strip).getLast? = some false := by
  obtain ⟨n, hn⟩ : ∃ n, latchCount strip.length = n + 1 := ⟨_, (Nat.sub_add_cancel (latchCount_pos _)).symm⟩
  have hzero : bits32 0#32 = List.replicate 31 false ++ [false] := by decide
  simp [encodeFrame, frameWords, latchWords, hn, List.replicate_succ', hzero, ← List.append_assoc]

/-! ### Runs through busy states -/

/-- `n` steps lead from `s` to `t`, each from a state that is not IDLE. -/
def BusyRun : Nat → State → State → Prop
  | 0, s, t => s = t
  | n + 1, s, t => s.phase ≠ .idle ∧ ∃ u, step s = .next u ∧ BusyRun n u t

theorem BusyRun.append {m n : Nat} {s t u : State} (h : BusyRun m s t) (h' : BusyRun n t u) : BusyRun (m + n) s u := by
  induction m generalizing s with
  | zero => cases h; simpa using h'
  | succ m ih =>
    obtain ⟨hp, v, hv, h⟩ := h
    rw [Nat.succ_add]
    exact ⟨hp, v, hv, ih h⟩

theorem BusyRun.runFor_eq {n : Nat} {s t : State} (h : BusyRun n s t) : runFor n s = .next t := by
  induction n generalizing s with
  | zero => cases h; rfl
  | succ n ih =>
    obtain ⟨-, u, hu, h⟩ := h
    rw [runFor_succ hu, ih h]

theorem BusyRun.busy {n k : Nat} {s t u : State} (h : BusyRun n s t) (hk : k < n) (hu : runFor k s = .next u) :
    u.phase ≠ .idle := by
  induction n generalizing s k with
  | zero => omega
  | succ n ih =>
    obtain ⟨hp, v, hv, h⟩ := h
    cases k with
    | zero => cases hu; exact hp
    | succ k => exact ih h (Nat.lt_of_succ_lt_succ hk) (by rwa [runFor_succ hv] at hu)

/-- A start step and a busy run back to IDLE are a TRANSMIT from its call to its return. -/
theorem BusyRun.returnsAfter {n : Nat} {s t u : State} (hs : step s = .next u) (h : BusyRun n u t)
    (ht : t.phase = .idle) : ReturnsAfter (n + 1) s t := by
  refine ⟨by rw [runFor_succ hs, h.runFor_eq], n.succ_pos, ht, fun k v hk hkn hv => ?_⟩
  obtain ⟨k, rfl⟩ := Nat.exists_eq_succ_of_ne_zero hk.ne'
  exact h.busy (Nat.lt_of_succ_lt_succ hkn) (by rwa [runFor_succ hs] at hv)

/-! ### The calls of a TRANSMIT that all succeed -/

/-- R114 to R116: the three calls of a bit-pair, answered `Ok`. -/
def bitCalls (c d : Handle) (b : Bool) : List Call :=
  [{ line := .data, handle := d, level := lvl b, answer := .ok },
   { line := .clock, handle := c, level := .high, answer := .ok },
   { line := .clock, handle := c, level := .low, answer := .ok }]

/-- R117: the call of DRV_TAIL, answered `Ok`. -/
def tailCall (d : Handle) : Call := { line := .data, handle := d, level := .low, answer := .ok }

/-- R121: all calls of a TRANSMIT of `f`, answered `Ok`. -/
def okTrace (c d : Handle) (f : Frame) : List Call :=
  f.flatMap (bitCalls c d) ++ if f.getLast? = some true then [tailCall d] else []

theorem okTrace_singleton (c d : Handle) (b : Bool) :
    okTrace c d [b] = bitCalls c d b ++ if b then [tailCall d] else [] := by simp [okTrace]

theorem okTrace_cons_cons (c d : Handle) (b b' : Bool) (f : Frame) :
    okTrace c d (b :: b' :: f) = bitCalls c d b ++ okTrace c d (b' :: f) := by simp [okTrace]

theorem okCalls_singleton (b : Bool) : okCalls [b] = 3 + if b then 1 else 0 := by
  simp [okCalls, tailCalls, Config.callsPerBit]

theorem okCalls_cons_cons (b b' : Bool) (f : Frame) : okCalls (b :: b' :: f) = 3 + okCalls (b' :: f) := by
  simp [okCalls, tailCalls, Config.callsPerBit]; omega

/-! ### What the receiver samples from them -/

/-- With the clock Low before it, a bit-pair is sampled once, with its own bit on the data line. -/
theorem sampleChoices_bitCalls (c d : Handle) (b : Bool) (dat : LineLevel) (cs : List Call) :
    sampleChoices .low dat (bitCalls c d b ++ cs) = (sampleChoices .low (levelReg (lvl b)) cs).map (b :: ·) := by
  cases b <;> simp [bitCalls, sampleChoices, Call.sampling, Call.after, LineLevel.bits, levelReg, lvl]

/-- Calls after the bit-pairs that are never sampled leave exactly the bits. -/
theorem sampleChoices_bits (c d : Handle) (f : Frame) (dat : LineLevel) {cs : List Call}
    (hcs : ∀ dat, sampleChoices .low dat cs = [[]]) :
    sampleChoices .low dat (f.flatMap (bitCalls c d) ++ cs) = [f] := by
  induction f generalizing dat with
  | nil => exact hcs dat
  | cons b f ih => simp [sampleChoices_bitCalls, ih]

/-- R124: the receiver samples exactly the frame. -/
theorem sampleChoices_okTrace (c d : Handle) (f : Frame) (dat : LineLevel) :
    sampleChoices .low dat (okTrace c d f) = [f] := by
  apply sampleChoices_bits
  intro dat
  split <;> simp [sampleChoices, tailCall, Call.sampling]

/-! ### The run of a TRANSMIT whose calls all succeed -/

/-- The state that a busy TRANSMIT from `s` returns in after the calls `calls`, all answered `Ok`. -/
structure State.Completes (s t : State) (calls : List Call) : Prop where
  phase : t.phase = .idle
  result : t.result = some .ok
  trace : t.trace = s.trace ++ calls
  startClk : t.startClk = s.startClk
  startDat : t.startDat = s.startDat
  cmds : t.cmds = s.cmds

/-- The state after the three calls of a bit-pair whose data bit is `b`, before the end of the bit-pair (R114 to R116). -/
def State.putBit (s : State) (b : Bool) : State :=
  ((((s.setLevel .data (lvl b)).goto .clkHi).setLevel .clock .high).goto .clkLo).setLevel .clock .low

@[simp] theorem State.putBit_answerAt (s : State) (b : Bool) (k : Nat) :
    (s.putBit b).answerAt k = s.answerAt (k + 3) := by simp [State.putBit]

@[simp] theorem State.putBit_dataLine (s : State) (b : Bool) : (s.putBit b).dataLine = s.dataLine := rfl

theorem State.putBit_trace {s : State} (b : Bool) (hok : ∀ k, k < 3 → s.answerAt k = .ok) :
    (s.putBit b).trace = s.trace ++ bitCalls s.clockLine s.dataLine b := by
  simp [State.putBit, State.handleOf, bitCalls, hok]

theorem step_data_of_ok {s : State} {b : Bool} (hp : s.phase = .data) (he : s.events = []) (hb : s.fr[s.i]? = some b)
    (hok : s.answerAt 0 = .ok) : step s = .next ((s.setLevel .data (lvl b)).goto .clkHi) := by
  rw [step_of_no_events he, stepBlock_data hp hb, State.attempt_of_ok hok]

theorem step_clkHi_of_ok {s : State} (hp : s.phase = .clkHi) (he : s.events = []) (hok : s.answerAt 0 = .ok) :
    step s = .next ((s.setLevel .clock .high).goto .clkLo) := by
  rw [step_of_no_events he, stepBlock_clkHi hp, State.attempt_of_ok hok]

theorem step_clkLo_of_ok {s : State} {b : Bool} (hp : s.phase = .clkLo) (he : s.events = [])
    (hb : s.fr[s.i]? = some b) (hok : s.answerAt 0 = .ok) :
    step s = .next ((s.setLevel .clock .low).endBitPair b) := by
  rw [step_of_no_events he, stepBlock_clkLo hp hb, State.attempt_of_ok hok]

theorem step_tail_of_ok {s : State} (hp : s.phase = .tail) (he : s.events = []) (hok : s.answerAt 0 = .ok) :
    step s = .next ((s.setLevel .data .low).finish .ok) := by
  rw [step_of_no_events he, stepBlock_tail hp, State.attempt_of_ok hok]

theorem busyRun_bitPair {s : State} {b : Bool} (hp : s.phase = .data) (he : s.events = []) (hb : s.fr[s.i]? = some b)
    (hok : ∀ k, k < 3 → s.answerAt k = .ok) : BusyRun 3 s ((s.putBit b).endBitPair b) :=
  ⟨by simp [hp], _, step_data_of_ok hp he hb (hok 0 (by decide)),
    by simp, _, step_clkHi_of_ok rfl he (by simp [hok]),
    by simp, _, step_clkLo_of_ok rfl he hb (by simp [hok]), rfl⟩

theorem getElem?_of_drop {f : Frame} {i : Nat} {b : Bool} {bs : Frame} (h : f.drop i = b :: bs) :
    f[i]? = some b := by
  rw [← List.head?_drop, h, List.head?_cons]

theorem length_of_drop {f : Frame} {i : Nat} {b : Bool} {bs : Frame} (h : f.drop i = b :: bs) :
    f.length = i + bs.length + 1 := by
  have hlen := congrArg List.length h
  simp at hlen
  omega

/-- A bit-pair with another one after it (R116). -/
theorem busyRun_nextBit {s : State} {b b' : Bool} {bs : Frame} (hp : s.phase = .data) (he : s.events = [])
    (hf : s.fr.drop s.i = b :: b' :: bs) (hok : ∀ k, k < 3 → s.answerAt k = .ok) :
    BusyRun 3 s { s.putBit b with i := s.i + 1, phase := .data } := by
  have hlt : s.i + 1 < s.fr.length := by simp [length_of_drop hf]
  have hend : (s.putBit b).endBitPair b = { s.putBit b with i := s.i + 1, phase := .data } := if_pos hlt
  exact hend ▸ busyRun_bitPair hp he (getElem?_of_drop hf) hok

/-- The last bit-pair (R116), and the tail after a last bit 1 (R117). -/
theorem busyRun_lastBit {s : State} {b : Bool} (hp : s.phase = .data) (he : s.events = []) (hf : s.fr.drop s.i = [b])
    (hok : ∀ k, k < okCalls [b] → s.answerAt k = .ok) :
    ∃ n t, BusyRun n s t ∧ s.Completes t (okTrace s.clockLine s.dataLine [b]) := by
  have hok3 : ∀ k, k < 3 → s.answerAt k = .ok := fun k hk => hok k (by rw [okCalls_singleton]; omega)
  have hpair := busyRun_bitPair hp he (getElem?_of_drop hf) hok3
  have htrace := State.putBit_trace b hok3
  have hlast : ¬ s.i + 1 < s.fr.length := by simp [length_of_drop hf]
  obtain ⟨hlt, -⟩ | ⟨-, rfl, heq⟩ | ⟨-, rfl, heq⟩ := (s.putBit b).endBitPair_cases b
  · exact absurd hlt hlast
  · have htail : s.answerAt 3 = .ok := hok 3 (by decide)
    rw [heq] at hpair
    have hreturn := step_tail_of_ok (s := (s.putBit true).goto .tail) rfl he (by simpa using htail)
    refine ⟨_, _, hpair.append (n := 1) ⟨by simp, _, hreturn, rfl⟩, rfl, rfl, ?_, rfl, rfl, rfl⟩
    simp [htrace, htail, okTrace_singleton, tailCall, State.handleOf]
  · rw [heq] at hpair
    exact ⟨_, _, hpair, rfl, rfl, by simp [htrace, okTrace_singleton], rfl, rfl, rfl⟩

/-- R121, R124: from the first call of a bit-pair on, with all calls answered `Ok`, the bits still to come go out and
the TRANSMIT returns `Ok`. -/
theorem busyRun_of_all_ok {s : State} {b : Bool} {bs : Frame} (hp : s.phase = .data) (he : s.events = [])
    (hf : s.fr.drop s.i = b :: bs) (hok : ∀ k, k < okCalls (b :: bs) → s.answerAt k = .ok) :
    ∃ n t, BusyRun n s t ∧ s.Completes t (okTrace s.clockLine s.dataLine (b :: bs)) := by
  induction bs generalizing s b with
  | nil => exact busyRun_lastBit hp he hf hok
  | cons b' bs ih =>
    rw [okCalls_cons_cons] at hok
    have hok3 : ∀ k, k < 3 → s.answerAt k = .ok := fun k hk => hok k (by omega)
    have hpair := busyRun_nextBit hp he hf hok3
    have hdrop : s.fr.drop (s.i + 1) = b' :: bs := by rw [← List.tail_drop, hf, List.tail_cons]
    obtain ⟨n, t, hrun, hphase, hresult, htrace, hclk, hdat, hcmds⟩ :=
      ih (s := { s.putBit b with i := s.i + 1, phase := .data }) rfl he hdrop
        fun k hk => (s.putBit_answerAt b k).trans (hok (k + 3) (by omega))
    refine ⟨3 + n, t, hpair.append hrun, hphase, hresult, ?_, hclk, hdat, hcmds⟩
    rw [htrace, okTrace_cons_cons, ← List.append_assoc]
    exact congrArg (· ++ _) (State.putBit_trace b hok3)

/-! ### TRANSMIT, and ENCODE before it -/

/-- R112, R121: a TRANSMIT whose calls all succeed returns `Ok`, and its trace is the calls of its frame on the two lines
`c` and `d` that it bound. -/
theorem transmit_of_all_ok {s : State} {f : Frame} {rest : List Instr} (h : s.CallsTransmit f rest)
    (hok : ∀ k, k < okCalls f → s.answerAt k = .ok) :
    ∃ n t c d, ReturnsAfter n s t ∧ t.result = some .ok ∧ t.cmds = rest ∧ t.startClk = s.clk ∧ t.startDat = s.dat ∧
      t.trace = okTrace c d f := by
  obtain ⟨hp, he, hb, a, c, d, hc, hcd, hf⟩ := h
  have hstart : step s = .next ((s.withCmds rest).startTransmit f c d) :=
    (step_of_call hp he hc).trans (exec_transmit_of_accepts hp hcd hf hb)
  cases f with
  | nil => exact ⟨1, _, c, d, BusyRun.returnsAfter (n := 0) hstart rfl rfl, rfl, rfl, rfl, rfl, rfl⟩
  | cons b bs =>
    obtain ⟨n, t, hrun, hphase, hresult, htrace, hclk, hdat, hcmds⟩ :=
      busyRun_of_all_ok (s := (s.withCmds rest).startTransmit (b :: bs) c d) rfl he rfl hok
    exact ⟨n + 1, t, c, d, hrun.returnsAfter hstart hphase, hresult, hcmds, hclk, hdat, htrace⟩

/-- R124: a receiver for which the clock started Low samples exactly the frame. -/
theorem samples_of_okTrace {t : State} {c d : Handle} {f : Frame} (hclk : t.startClk = .low)
    (htrace : t.trace = okTrace c d f) : t.samples = [f] := by
  rw [State.samples, hclk, htrace, sampleChoices_okTrace]

/-- The caller holds the frame `f` from ENCODE (R83). -/
def State.withReturned (s : State) (f : Frame) : State := { s with returned := some f }

/-- A call of ENCODE gives the caller its frame. -/
theorem step_encode_call {s : State} {strip : Strip} {rest : List Instr} (hp : s.phase = .idle) (he : s.events = [])
    (hc : s.cmds = .encode strip :: rest) (hstrip : s.params.acceptsStrip strip.length = true) :
    step s = .next ((s.withCmds rest).withReturned (encodeFrame strip)) :=
  (step_of_call hp he hc).trans (exec_encode_of_accepts hstrip)

theorem okCalls_encodeFrame (strip : Strip) : okCalls (encodeFrame strip) = 3 * frameLength strip.length := by
  simp [okCalls, tailCalls, encodeFrame_getLast?, encodeFrame_length, Config.callsPerBit]

/-- Settles O53: ENCODE gives the caller the frame, its TRANSMIT puts exactly that frame on the wire, and DECODE inverts
ENCODE. -/
theorem pixelsReachTheWire : Obligations.PixelsReachTheWire := by
  intro s strip c d rest hp he hclk hcd hc hstrip hframe hok
  have hcalls : ((s.withCmds (.transmit .returned c d :: rest)).withReturned (encodeFrame strip)).CallsTransmit
      (encodeFrame strip) rest :=
    ⟨hp, he, by rwa [encodeFrame_length], .returned, c, d, rfl, hcd, rfl⟩
  obtain ⟨n, t, c', d', ⟨hrun, -, hidle, -⟩, hresult, hcmds, hstart, -, htrace⟩ :=
    transmit_of_all_ok hcalls (by rwa [okCalls_encodeFrame])
  exact ⟨n + 1, t, encodeFrame strip, by rw [runFor_succ (step_encode_call hp he hc hstrip), hrun], hidle, hcmds,
    hresult, samples_of_okTrace (hstart.trans hclk) htrace, decodeFrame_encodeFrame strip⟩

end Sys2Proof.Machine
end

section
/-! PROOFS. The state statements (10_state.md): the sequencer's registers in each phase and after every step, which
operation writes which register, the outcome of a TRANSMIT, reset, and the values at reset. -/

namespace Sys2Proof.Machine

/-! ### The sequencer's invariant -/

/-- A bit-pair, or the tail after the last one, is being processed (R26, R112): there is a bit-pair at `i`, and neither
an error nor an outcome yet. -/
def State.InBitPair (s : State) : Prop :=
  s.clockLine ≠ s.dataLine ∧ s.i < s.fr.length ∧ s.pend = none ∧ s.result = none

theorem State.SequencerInv.inBitPair {s : State} (h : s.SequencerInv)
    (hp : s.phase = .data ∨ s.phase = .clkHi ∨ s.phase = .clkLo ∨ s.phase = .tail) : s.InBitPair := by
  obtain ⟨hlines, h⟩ := h
  rcases hp with hp | hp | hp | hp <;> simp only [hp] at h
  case inr.inr.inr =>
    obtain ⟨hlast, -, hpend, hresult⟩ := h
    exact ⟨hlines, by omega, hpend, hresult⟩
  all_goals exact ⟨hlines, h⟩

theorem State.InBitPair.i_lt {s : State} (h : s.InBitPair) : s.i < s.fr.length := h.2.1

theorem State.SequencerInv.setLevel {s : State} (h : s.SequencerInv) (l : Line) (v : Level) :
    (s.setLevel l v).SequencerInv := by
  cases l <;> exact h

theorem State.InBitPair.setLevel {s : State} (h : s.InBitPair) (l : Line) (v : Level) : (s.setLevel l v).InBitPair := by
  cases l <;> exact h

theorem State.InBitPair.goto {s : State} (h : s.InBitPair) {p : Phase} (hp : p = .data ∨ p = .clkHi ∨ p = .clkLo) :
    (s.goto p).SequencerInv := by
  rcases hp with rfl | rfl | rfl <;> exact h

theorem State.InBitPair.finish {s : State} (h : s.InBitPair) (r : TxResult) : (s.finish r).SequencerInv := by
  obtain ⟨hlines, -, hpend, -⟩ := h
  exact ⟨hlines, hpend⟩

theorem State.InBitPair.abort {s : State} (h : s.InBitPair) {k : Nat} (hk : k < s.fr.length) (l : Line) (c : Cause) :
    (s.abort k l c).SequencerInv := by
  obtain ⟨hlines, -, -, hresult⟩ := h
  exact ⟨hlines, ⟨_, rfl, hk⟩, hresult⟩

/-- R116: the next bit-pair exists, or the last bit decides between TAIL and the return. -/
theorem State.InBitPair.endBitPair {s : State} (h : s.InBitPair) {b : Bool} (hb : s.fr[s.i]? = some b) :
    (s.endBitPair b).SequencerInv := by
  obtain ⟨hnext, heq⟩ | ⟨hlast, rfl, heq⟩ | ⟨-, -, heq⟩ := s.endBitPair_cases b <;> rw [heq]
  · obtain ⟨hlines, -, hregs⟩ := h
    exact ⟨hlines, hnext, hregs⟩
  · obtain ⟨hlines, hi, hregs⟩ := h
    have hend : s.i + 1 = s.fr.length := by omega
    exact ⟨hlines, hend, hb, hregs⟩
  · exact h.finish .ok

/-- R145: a failed call leaves an error of a bit-pair of the frame to report. -/
theorem State.InBitPair.attempt {s : State} (h : s.InBitPair) {l : Line} {v : Level} {k : Nat} {onOk : State → State}
    (hk : k < s.fr.length) (honOk : (onOk (s.setLevel l v)).SequencerInv) : (s.attempt l v k onOk).SequencerInv := by
  obtain ⟨-, heq⟩ | ⟨c, -, heq⟩ := s.attempt_cases l v k onOk <;> rw [heq]
  · exact honOk
  · exact (h.setLevel l v).abort (by simpa using hk) l c

theorem State.SequencerInv.goto_rstDat {s : State} (h : s.SequencerInv) (hp : s.phase = .rstClk) :
    (s.goto .rstDat).SequencerInv := by
  simp only [State.SequencerInv, hp] at h
  exact h

theorem State.SequencerInv.report {s : State} (h : s.SequencerInv) (e : LineIOError) : (s.report e).SequencerInv :=
  ⟨h.1, rfl⟩

theorem State.SequencerInv.resetBlock {s : State} (h : s.SequencerInv) (b : Bool) : (s.resetBlock b).SequencerInv :=
  ⟨h.1, rfl⟩

/-- R112: TRANSMIT of a frame starts at bit-pair 0, and of the empty frame it returns at once. -/
theorem State.startTransmit_sequencerInv (s : State) (f : Frame) {c d : Handle} (hcd : c ≠ d) :
    (s.startTransmit f c d).SequencerInv := by
  cases f with
  | nil => exact ⟨hcd, rfl⟩
  | cons b bs => exact ⟨hcd, Nat.succ_pos _, rfl, rfl⟩

theorem exec_keeps_sequencerInv {i : Instr} {s t : State} (hs : s.SequencerInv) (h : exec i s = .next t) :
    t.SequencerInv := by
  by_cases hc : ∃ ph, contextOf i = some (.call ph)
  · obtain ⟨ph, hc⟩ := hc
    obtain ⟨hp, ⟨b, -, rfl, -, rfl⟩ | ⟨-, rfl, rfl⟩ | ⟨b, -, rfl, hb, rfl⟩ | ⟨-, rfl, rfl⟩ | ⟨-, rfl, rfl⟩ |
      ⟨e, -, -, -, rfl⟩⟩ := microStep_cases hc h
    · have hpair := hs.inBitPair (by simp [hp])
      exact hpair.attempt hpair.i_lt ((hpair.setLevel _ _).goto (by simp))
    · have hpair := hs.inBitPair (by simp [hp])
      exact hpair.attempt hpair.i_lt ((hpair.setLevel _ _).goto (by simp))
    · have hpair := hs.inBitPair (by simp [hp])
      exact hpair.attempt hpair.i_lt ((hpair.setLevel _ _).endBitPair (by simpa using hb))
    · have hpair := hs.inBitPair (by simp [hp])
      exact hpair.attempt (Nat.sub_one_lt_of_lt hpair.i_lt) ((hpair.setLevel _ _).finish .ok)
    · exact (hs.setLevel _ _).goto_rstDat (by simpa using hp)
    · exact (hs.setLevel _ _).report e
  · obtain ⟨a, c, d, f, -, -, hcd, -, -, rfl⟩ | ⟨r, w, rfl⟩ := operation_cases (not_exists.mp hc) h
    · exact s.startTransmit_sequencerInv f hcd
    · exact hs

/-- Settles O37: each successor phase is entered with the registers that it needs. -/
theorem stepKeepsTheSequencerInvariant : Obligations.StepKeepsTheSequencerInvariant :=
  fun _ _ => step_keeps (fun _ _ _ => exec_keeps_sequencerInv) (fun _ b hs => hs.resetBlock b) (fun _ _ _ hs => hs)

/-- Settles O36: in IDLE nothing is pending, no call is recorded, and the two handles are distinct tokens. -/
theorem resetMeetsTheInvariants : Obligations.ResetMeetsTheInvariants :=
  ⟨⟨by decide, rfl⟩, trivial, rfl, rfl⟩

/-! ### Which operation writes which register -/

/-- R116: the end of a bit-pair writes only `i`, `result` and `phase`. -/
theorem State.endBitPair_frame (b : Bool) (s : State) :
    s.endBitPair b =
      { s with i := (s.endBitPair b).i, result := (s.endBitPair b).result, phase := (s.endBitPair b).phase } := by
  obtain ⟨-, heq⟩ | ⟨-, -, heq⟩ | ⟨-, -, heq⟩ := s.endBitPair_cases b <;> rw [heq] <;> rfl

/-- Settles O30: the fields that each micro-step's call, go-on and abort write, and those of an operation. -/
theorem registersHaveTheirWriters : Obligations.RegistersHaveTheirWriters := by
  intro i s t h
  by_cases hc : ∃ ph, contextOf i = some (.call ph)
  · obtain ⟨ph, hc⟩ := hc
    obtain ⟨-, ⟨b, rfl, rfl, -, rfl⟩ | ⟨rfl, rfl, rfl⟩ | ⟨b, rfl, -, -, rfl⟩ | ⟨rfl, rfl, rfl⟩ | ⟨rfl, rfl, rfl⟩ |
      ⟨e, rfl, rfl, -, rfl⟩⟩ := microStep_cases hc h
    · obtain ⟨-, heq⟩ | ⟨c, -, heq⟩ := s.attempt_cases .data (lvl b) s.i (·.goto .clkHi) <;> rw [heq] <;>
        simp [contextOf]
    · obtain ⟨-, heq⟩ | ⟨c, -, heq⟩ := s.attempt_cases .clock .high s.i (·.goto .clkLo) <;> rw [heq] <;>
        simp [contextOf]
    · obtain ⟨-, heq⟩ | ⟨c, -, heq⟩ := s.attempt_cases .clock .low s.i (State.endBitPair b) <;> rw [heq]
      · rw [State.endBitPair_frame]
        simp [contextOf]
      · simp [contextOf]
    · obtain ⟨-, heq⟩ | ⟨c, -, heq⟩ := s.attempt_cases .data .low (s.fr.length - 1) (·.finish .ok) <;> rw [heq] <;>
        simp [contextOf]
    · simp [contextOf]
    · simp [contextOf]
  · obtain ⟨a, c, d, f, rfl, -, -, -, -, rfl⟩ | ⟨r, w, rfl⟩ := operation_cases (not_exists.mp hc) h
    · simp
    · simp

/-- Settles O29: the phase check comes before everything else that a micro-step does. -/
theorem microStepOutsideItsPhaseIsRefused : Obligations.MicroStepOutsideItsPhaseIsRefused := by
  intro i ph s hc hp
  cases i <;> cases hc <;>
    simp [exec, execDrvData, execDrvClkRise, execDrvClkFall, execDrvTail, execDrvRstClk, execDrvRstDat, inPhase, hp]

/-! ### The outcome -/

/-- R28, R148: from `s` to `t` the block stays busy and leaves the outcome, or it returns with one. -/
def State.StaysOrReturns (s t : State) : Prop :=
  (t.phase ≠ .idle ∧ t.result = s.result) ∨ (t.phase = .idle ∧ t.result ≠ none)

theorem State.endBitPair_staysOrReturns (b : Bool) (s : State) : s.StaysOrReturns (s.endBitPair b) := by
  obtain ⟨-, heq⟩ | ⟨-, -, heq⟩ | ⟨-, -, heq⟩ := s.endBitPair_cases b <;> rw [heq]
  · exact .inl ⟨by simp, rfl⟩
  · exact .inl ⟨by simp, rfl⟩
  · exact .inr ⟨rfl, by simp⟩

theorem State.attempt_staysOrReturns {s : State} {l : Line} {v : Level} {k : Nat} {onOk : State → State}
    (honOk : ∀ u : State, u.StaysOrReturns (onOk u)) : s.StaysOrReturns (s.attempt l v k onOk) := by
  obtain ⟨-, heq⟩ | ⟨c, -, heq⟩ := s.attempt_cases l v k onOk <;> rw [heq]
  · simpa [State.StaysOrReturns] using honOk (s.setLevel l v)
  · exact .inl ⟨by simp, by simp⟩

theorem microStep_staysOrReturns {i : Instr} {ph : Phase} {s t : State} (hc : contextOf i = some (.call ph))
    (h : exec i s = .next t) : s.StaysOrReturns t := by
  obtain ⟨-, ⟨b, -, -, -, rfl⟩ | ⟨-, -, rfl⟩ | ⟨b, -, -, -, rfl⟩ | ⟨-, -, rfl⟩ | ⟨-, -, rfl⟩ | ⟨e, -, -, -, rfl⟩⟩ :=
    microStep_cases hc h
  · exact State.attempt_staysOrReturns fun u => .inl ⟨by simp, rfl⟩
  · exact State.attempt_staysOrReturns fun u => .inl ⟨by simp, rfl⟩
  · exact State.attempt_staysOrReturns (State.endBitPair_staysOrReturns b)
  · exact State.attempt_staysOrReturns fun u => .inr ⟨rfl, by simp⟩
  · exact .inl ⟨by simp, by simp⟩
  · exact .inr ⟨rfl, by simp⟩

/-- A micro-step runs in no idle block (R27). -/
theorem contextOf_ne_call_of_idle {i : Instr} {s t : State} (hp : s.phase = .idle) (h : exec i s = .next t)
    (ph : Phase) : contextOf i ≠ some (.call ph) := by
  intro hc
  obtain ⟨rfl, -⟩ := microStep_cases hc h
  cases i <;> simp [contextOf, hp] at hc

theorem not_takesReset_of_not_due {s : State} (h : s.dueEvent = none) : ¬ s.TakesReset := by
  rintro ⟨b, es, he⟩
  simp [State.dueEvent, he] at h

/-- Everything that a step does to the outcome: an event that passes, a wait or an operation that is no TRANSMIT leaves
it; a micro-step stays or returns; a reset clears it; an accepted TRANSMIT starts anew. -/
theorem step_result_cases {s t : State} (h : step s = .next t) :
    (t.phase = s.phase ∧ t.result = s.result) ∨
      (s.phase ≠ .idle ∧ ¬ s.TakesReset ∧ s.StaysOrReturns t) ∨
      (s.TakesReset ∧ t.result = none) ∨
      ∃ a c d f u, s.TakesTransmit a c d ∧ c ≠ d ∧ resolveFrame s.returned a = some f ∧
        t = State.startTransmit u f c d := by
  obtain ⟨b, es, he, rfl⟩ | ⟨a, c, d, es, he, h⟩ | ⟨-, -, -, rfl⟩ | ⟨hd, hp, i, rest, hcmds, h⟩ | ⟨hd, hp, i, hc, h⟩ :=
    step_cases h
  · exact .inr (.inr (.inl ⟨⟨b, es, he⟩, rfl⟩))
  · obtain ⟨_, _, _, f, hi, hp, hcd, hf, -, rfl⟩ | ⟨r, w, rfl⟩ := operation_cases (by simp [contextOf]) h
    · cases hi
      exact .inr (.inr (.inr ⟨a, c, d, f, _, ⟨hp, .inl ⟨es, he⟩⟩, hcd, hf, rfl⟩))
    · exact .inl ⟨rfl, rfl⟩
  · exact .inl ⟨by simp, by simp⟩
  · obtain ⟨a, c, d, f, rfl, -, hcd, hf, -, rfl⟩ | ⟨r, w, rfl⟩ :=
      operation_cases (contextOf_ne_call_of_idle (by simpa using hp) h) h
    · exact .inr (.inr (.inr ⟨a, c, d, f, _, ⟨hp, .inr ⟨hd, rest, hcmds⟩⟩, hcd, by simpa using hf, rfl⟩))
    · exact .inl ⟨by simp, by simp⟩
  · refine .inr (.inl ⟨hp, not_takesReset_of_not_due hd, ?_⟩)
    simpa [State.StaysOrReturns] using microStep_staysOrReturns hc h

/-- Settles O42, by what a step can do to the outcome. -/
theorem resultIsWrittenOnReturn : Obligations.ResultIsWrittenOnReturn := by
  intro s t h
  obtain ⟨hphase, hkeep⟩ | ⟨hp, hreset, hstay | hreturn⟩ | ⟨hreset, hnone⟩ | ⟨a, c, d, f, u, htake, hcd, hf, rfl⟩ :=
    step_result_cases h
  · exact ⟨fun hne => absurd hkeep hne, fun hbusy hidle => absurd (hphase ▸ hidle) hbusy⟩
  · exact ⟨fun hne => absurd hstay.2 hne, fun _ hidle => absurd hidle hstay.1⟩
  · exact ⟨fun _ => .inl ⟨hreturn.2, hp, hreturn.1, hreset⟩, fun _ _ _ => hreturn.2⟩
  · exact ⟨fun _ => .inr (.inr ⟨hnone, .inl hreset⟩), fun _ _ hno => absurd hreset hno⟩
  · refine ⟨fun _ => ?_, fun hbusy => absurd htake.1 hbusy⟩
    cases f with
    | nil => exact .inr (.inl ⟨rfl, rfl, rfl, a, c, d, htake, hcd, hf⟩)
    | cons b bs => exact .inr (.inr ⟨rfl, .inr ⟨a, c, d, b :: bs, htake, hcd, by simp, hf⟩⟩)

/-! ### Reset and the numeric codes -/

theorem step_of_reset {s : State} {b : Bool} {es : List Event}
    (h : s.events = { after := 0, kind := .reset b } :: es) :
    step s = .next (({ s with events := es } : State).resetBlock b) := by
  simp [step, State.dueEvent, h, takeEvent]

/-- Settles O34: the landing reset is the step, and only the lines depend on where it lands. -/
theorem resetEvent : Obligations.ResetEvent := by
  intro s b es he
  refine ⟨_, step_of_reset he, rfl, rfl, rfl, rfl, rfl, fun hp hb => ?_, fun hp hb => ?_, fun hp => ?_,
    rfl, rfl, rfl, rfl, rfl, rfl, rfl⟩
  · simp [State.linesAfterReset, hp, hb]
  · simp [State.linesAfterReset, hp, hb]
  · simp [State.linesAfterReset, hp]

/-- Settles O35: `State.reset` writes out R30. -/
theorem resetValues : Obligations.ResetValues := ⟨rfl, rfl, rfl, rfl, rfl, rfl, rfl⟩

/-- R143: no result names InvalidPixelCount. -/
theorem TxResult.errorName_ne_invalidPixelCount (r : TxResult) : r.errorName ≠ some .invalidPixelCount := by
  cases r <;> simp [TxResult.errorName]

/-- Settles O43: every error result is a LineIOError. -/
theorem resultCodes : Obligations.ResultCodes :=
  ⟨rfl, fun _ => rfl, rfl, TxResult.errorName_ne_invalidPixelCount⟩

end Sys2Proof.Machine
end

section
/-! PROOFS. The decoder in the state's terms (10_state.md, R27, R66): it accepts only encodings, the driver's call code
names the micro-step of its phase, and a step runs what that code decodes to. -/

namespace Sys2Proof.Machine

/-! ### Bytes and words -/

/-- R44 as a number. -/
theorem wordOfBytes_toNat (b0 b1 b2 b3 : Byte) :
    (wordOfBytes b0 b1 b2 b3).toNat = b0.toNat * 2 ^ 24 + b1.toNat * 2 ^ 16 + b2.toNat * 2 ^ 8 + b3.toNat := by
  simp only [wordOfBytes, BitVec.toNat_append]
  iterate 3 rw [← Nat.shiftLeft_add_eq_or_of_lt (BitVec.isLt _)]
  simp only [Nat.shiftLeft_eq]
  omega

theorem wordBytes_wordOfBytes (b0 b1 b2 b3 : Byte) : wordBytes (wordOfBytes b0 b1 b2 b3) = [b0, b1, b2, b3] := by
  simp only [wordBytes, List.cons.injEq, and_true, ← BitVec.toNat_inj, extractLsb'_toNat_div, wordOfBytes_toNat]
  omega

/-- R62, R65: the layout and the arithmetic give one word. -/
theorem pixelWordLayout_eq_pixelWord (p : Pixel) : pixelWordLayout p = pixelWord p := by
  apply BitVec.eq_of_toNat_eq
  simp only [pixelWord_toNat, pixelWordLayout, BitVec.toNat_append]
  iterate 4 rw [← Nat.shiftLeft_add_eq_or_of_lt (BitVec.isLt _)]
  simp only [Nat.shiftLeft_eq, BitVec.toNat_ofNat, Config.header]
  omega

/-- A word with the header is the pixel word of its fields (R62). -/
theorem pixelWordLayout_pixelOfWord {w : Word} (h : isPixelWord w = true) : pixelWordLayout (pixelOfWord w) = w := by
  have hheader : w.extractLsb' 29 3 = Config.header := by simpa [isPixelWord] using h
  have htop : w.toNat / 2 ^ 29 % 2 ^ 3 = 7 := by rw [← extractLsb'_toNat_div, hheader]; rfl
  have hlt := w.isLt
  apply BitVec.eq_of_toNat_eq
  simp only [pixelWordLayout_eq_pixelWord, pixelWord_toNat, pixelOfWord, extractLsb'_toNat_div]
  omega

/-! ### The decoder accepts only encodings -/

theorem dropZeroWords_eq_some {n : Nat} {bs rest : List Byte} (h : dropZeroWords n bs = some rest) :
    bs = (List.replicate n (wordBytes 0)).flatten ++ rest := by
  fun_induction dropZeroWords n bs with
  | case1 bs => simpa using h
  | case2 n b0 b1 b2 b3 bs hzero ih =>
    have hbytes : wordBytes 0 = [b0, b1, b2, b3] := by rw [← hzero, wordBytes_wordOfBytes]
    rw [ih h, List.replicate_succ, List.flatten_cons, hbytes]
    rfl
  | case3 => simp at h
  | case4 => simp at h

theorem codeByte_setWidth {b : Byte} (h : b.toNat < 4) : codeByte (b.setWidth 2) = b := by
  apply BitVec.eq_of_toNat_eq
  simp only [codeByte, BitVec.toNat_setWidth]
  omega

/-- R66: a call code that stands for a micro-step in a phase is that micro-step's code. -/
theorem microStepOf_eq_some {ph : Phase} {c : BitVec 2} {i : Instr} (h : microStepOf ph c = some i) :
    contextOf i = some (.call ph) ∧ encode i = some [codeByte c] := by
  unfold microStepOf at h
  split at h <;> cases h <;> exact ⟨rfl, rfl⟩

/-- Settles O16, by the places where the decoder can stand and the answers it gives there. -/
theorem decodeAcceptsOnlyEncodings : Obligations.DecodeAcceptsOnlyEncodings := by
  intro ctx bytes rest i h
  unfold decode at h
  split at h
  case h_1 b0 b1 b2 b3 after =>
    split at h <;> cases h
    rename_i hzero
    refine ⟨wordBytes 0, rfl, ?_, .inl rfl⟩
    rw [← hzero, wordBytes_wordOfBytes]
    rfl
  case h_2 n b0 b1 b2 b3 after =>
    split at h
    · cases h
      rename_i hpixel
      refine ⟨_, rfl, ?_, .inr ⟨_, n, rfl, rfl⟩⟩
      rw [pixelWordLayout_pixelOfWord hpixel, wordBytes_wordOfBytes]
      rfl
    split at h
    · split at h <;> cases h
      rename_i hdrop
      exact ⟨_, rfl, dropZeroWords_eq_some hdrop, .inl rfl⟩
    · cases h
  case h_3 ph b after =>
    split at h
    · rename_i hcode
      split at h <;> cases h
      rename_i hstep
      obtain ⟨hcontext, hencode⟩ := microStepOf_eq_some hstep
      exact ⟨_, hencode, by rw [codeByte_setWidth hcode]; rfl, .inl hcontext⟩
    · cases h
  case h_4 => cases h

/-! ### The driver's call code -/

/-- R66: in its phase a micro-step's code decodes to it, whatever bytes follow. -/
theorem decode_microStep {i : Instr} {ph : Phase} {code : Byte} (hc : contextOf i = some (.call ph))
    (he : encode i = some [code]) (rest : List Byte) : decode (.call ph) (code :: rest) = .ok i rest := by
  cases i <;> cases hc <;> cases he
  case drvData b => cases b <;> rfl
  all_goals rfl

/-- R27, R66: the code that the driver shows is the code of the micro-step that it runs. -/
theorem State.nextCode_eq_some {s : State} {code : Byte} (h : s.nextCode = some code) :
    ∃ i, contextOf i = some (.call s.phase) ∧ encode i = some [code] ∧ s.select = .run i s := by
  unfold State.nextCode at h
  unfold State.select
  cases hp : s.phase <;> simp only [hp] at h
  case data =>
    obtain ⟨b, hb, rfl⟩ := Option.map_eq_some_iff.mp h
    exact ⟨.drvData b, rfl, rfl, by simp [hb]⟩
  case idle => cases h
  all_goals cases h; exact ⟨_, rfl, rfl, rfl⟩

/-- Under the invariant every busy phase has a code to show: DATA stands at a bit of the frame. -/
theorem State.SequencerInv.nextCode_isSome {s : State} (h : s.SequencerInv) (hp : s.phase ≠ .idle) :
    ∃ code, s.nextCode = some code := by
  obtain ⟨-, h⟩ := h
  unfold State.nextCode
  cases hph : s.phase <;> simp only [hph] at h
  case idle => exact absurd hph hp
  case data => exact ⟨_, congrArg (Option.map _) (List.getElem?_eq_getElem h.1)⟩
  all_goals exact ⟨_, rfl⟩

/-- Settles O32: the invariant gives the code, and the code is that of the phase's micro-step. -/
theorem nextCallCodeDecodes : Obligations.NextCallCodeDecodes := by
  intro s hs hp
  obtain ⟨code, hcode⟩ := hs.nextCode_isSome hp
  obtain ⟨i, hc, he, -⟩ := State.nextCode_eq_some hcode
  exact ⟨code, i, hcode, hc, decode_microStep hc he⟩

/-! ### A step with no event due -/

@[simp] theorem State.tickEvents_nextCode (s : State) : s.tickEvents.nextCode = s.nextCode := by
  simp [State.nextCode]

theorem step_of_not_due {s : State} (h : s.dueEvent = none) : step s = stepBlock s.tickEvents := by
  simp [step, h]

theorem stepBlock_of_call {s : State} {i : Instr} {rest : List Instr} (hp : s.phase = .idle)
    (hc : s.cmds = i :: rest) : stepBlock s = exec i (s.withCmds rest) := by
  simp [stepBlock, State.select, hp, hc]

theorem stepBlock_of_no_call {s : State} (hp : s.phase = .idle) (hc : s.cmds = []) : stepBlock s = .next s := by
  simp [stepBlock, State.select, hp, hc]

/-- R27, R66: a step of the block runs what its call code decodes to. -/
theorem stepBlock_of_decode {s : State} {code : Byte} {i : Instr} {rest : List Byte} (hcode : s.nextCode = some code)
    (hd : decode (.call s.phase) (code :: rest) = .ok i rest) : stepBlock s = exec i s := by
  obtain ⟨j, hc, he, hselect⟩ := State.nextCode_eq_some hcode
  rw [decode_microStep hc he, Decoded.ok.injEq] at hd
  rw [stepBlock, hselect, hd.1]

/-- No event, or one that is not due: the step draws the coming event nearer. -/
theorem tickEvents_of_not_due {s u : State}
    (h : (s.events = [] ∧ u = s) ∨
      ∃ n k es, s.events = { after := n + 1, kind := k } :: es ∧
        u = { s with events := { after := n, kind := k } :: es }) :
    s.dueEvent = none ∧ s.tickEvents = u := by
  obtain ⟨he, rfl⟩ | ⟨n, k, es, he, rfl⟩ := h <;> simp [State.dueEvent, State.tickEvents, he]

/-- Settles O31: with no event due a step is the block's own action after the tick. -/
theorem stepRunsTheDecodedInstruction : Obligations.StepRunsTheDecodedInstruction := by
  intro s u hu
  obtain ⟨hdue, rfl⟩ := tickEvents_of_not_due hu
  rw [step_of_not_due hdue]
  refine ⟨fun code i rest hcode hd => ?_, fun i rest hp hc => ?_, fun hp hc => ?_⟩
  · exact stepBlock_of_decode (by simpa using hcode) (by simpa using hd)
  · exact stepBlock_of_call (by simpa using hp) (by simpa using hc)
  · exact stepBlock_of_no_call (by simpa using hp) (by simpa using hc)

end Sys2Proof.Machine
end

section
/-! PROOFS. The wire and the frame (20_memory.md, R42, R46 to R49): the one call of a micro-step, the line registers that
follow the recorded calls, the serializer's closed form, and what a TRANSMIT keeps to its return. -/

namespace Sys2Proof.Machine

/-! ### The one call of a micro-step -/

/-- What holds after the go-on of a call that succeeded and after the abort of one that failed holds after an attempt
(R114 to R117). -/
theorem State.attempt_induction {P : State → Prop} {s : State} {l : Line} {v : Level} {k : Nat} {onOk : State → State}
    (hok : s.answerAt 0 = .ok → P (onOk (s.setLevel l v))) (herr : ∀ c, P ((s.setLevel l v).abort k l c)) :
    P (s.attempt l v k onOk) := by
  obtain ⟨ha, heq⟩ | ⟨c, -, heq⟩ := s.attempt_cases l v k onOk <;> rw [heq]
  · exact hok ha
  · exact herr c

/-- From `u` to `t` no line moves and the frame stays: only the sequencer goes on (R26), `i` at most to the next
bit-pair. -/
def State.SequencerMoves (u t : State) : Prop :=
  ∃ p i e r, t = { u with phase := p, i := i, pend := e, result := r } ∧ (i = u.i ∨ i = u.i + 1)

theorem State.sequencerMoves_endBitPair (b : Bool) (s : State) : s.SequencerMoves (s.endBitPair b) := by
  obtain ⟨-, heq⟩ | ⟨-, -, heq⟩ | ⟨-, -, heq⟩ := s.endBitPair_cases b <;> rw [heq]
  · exact ⟨_, _, _, _, rfl, .inr rfl⟩
  · exact ⟨_, _, _, _, rfl, .inl rfl⟩
  · exact ⟨_, _, _, _, rfl, .inl rfl⟩

theorem State.sequencerMoves_attempt {s : State} {l : Line} {v : Level} {k : Nat} {onOk : State → State}
    (honOk : ∀ u : State, u.SequencerMoves (onOk u)) : (s.setLevel l v).SequencerMoves (s.attempt l v k onOk) :=
  State.attempt_induction (fun _ => honOk _) fun _ => ⟨_, _, _, _, rfl, .inl rfl⟩

/-- R66, R46: a micro-step is the call of its code, and then a move of the sequencer. -/
theorem microStep_call {i : Instr} {ph : Phase} {s t : State} (hc : contextOf i = some (.call ph))
    (h : exec i s = .next t) :
    ∃ l v, encode i = some [codeByte (callCode l v)] ∧ (s.setLevel l v).SequencerMoves t := by
  obtain ⟨-, ⟨b, rfl, -, -, rfl⟩ | ⟨rfl, -, rfl⟩ | ⟨b, rfl, -, -, rfl⟩ | ⟨rfl, -, rfl⟩ | ⟨rfl, -, rfl⟩ |
    ⟨e, rfl, -, -, rfl⟩⟩ := microStep_cases hc h <;> refine ⟨_, _, rfl, ?_⟩
  · exact State.sequencerMoves_attempt fun _ => ⟨_, _, _, _, rfl, .inl rfl⟩
  · exact State.sequencerMoves_attempt fun _ => ⟨_, _, _, _, rfl, .inl rfl⟩
  · exact State.sequencerMoves_attempt (State.sequencerMoves_endBitPair b)
  · exact State.sequencerMoves_attempt fun _ => ⟨_, _, _, _, rfl, .inl rfl⟩
  · exact ⟨_, _, _, _, rfl, .inl rfl⟩
  · exact ⟨_, _, _, _, rfl, .inl rfl⟩

/-- R128: `handle(line)` by the line. -/
theorem State.handleOf_eq_ite (s : State) (l : Line) :
    s.handleOf l = if l = .clock then s.clockLine else s.dataLine := by
  cases l <;> rfl

/-- Settles O18: the micro-step does to the calls what the one SetLevel of its code does. -/
theorem microStepIssuesTheCallItsCodeNames : Obligations.MicroStepIssuesTheCallItsCodeNames := by
  intro i ph s t hc h
  obtain ⟨l, v, hcode, p, i', e, r, rfl, -⟩ := microStep_call hc h
  exact ⟨l, v, hcode, by rw [← State.handleOf_eq_ite, ← State.setLevel_trace], s.setLevel_draws l v,
    s.answerAt_setLevel l v⟩

/-! ### The invariant of the wire -/

/-- R47, R113: a call writes its line's register and appends itself to the trace. -/
theorem State.LinesFollowTrace.setLevel {s : State} (h : s.LinesFollowTrace) (l : Line) (v : Level) :
    (s.setLevel l v).LinesFollowTrace := by
  obtain ⟨hclk, hdat⟩ := h
  constructor
  · rw [State.setLevel_clk, State.setLevel_trace, State.setLevel_startClk, List.foldl_append, ← hclk]
    rfl
  · rw [State.setLevel_dat, State.setLevel_trace, State.setLevel_startDat, List.foldl_append, ← hdat]
    rfl

theorem exec_keeps_linesFollowTrace {i : Instr} {s t : State} (hs : s.LinesFollowTrace) (h : exec i s = .next t) :
    t.LinesFollowTrace := by
  by_cases hc : ∃ ph, contextOf i = some (.call ph)
  · obtain ⟨ph, hc⟩ := hc
    obtain ⟨l, v, -, p, i', e, r, rfl, -⟩ := microStep_call hc h
    exact hs.setLevel l v
  · obtain ⟨a, c, d, f, -, -, -, -, -, rfl⟩ | ⟨r, w, rfl⟩ := operation_cases (not_exists.mp hc) h
    · exact ⟨rfl, rfl⟩
    · exact hs

/-- R116: after a completed bit-pair the clock is Low, at the next one and in TAIL. -/
theorem State.linesAgree_endBitPair {s : State} (h : s.clk = .low) (b : Bool) : (s.endBitPair b).LinesAgree := by
  obtain ⟨-, heq⟩ | ⟨-, -, heq⟩ | ⟨-, -, heq⟩ := s.endBitPair_cases b <;> rw [heq]
  · exact h
  · exact h
  · trivial

/-- A failed call enters restoration, which assumes nothing of the lines (R145), so only the go-on has to agree. -/
theorem State.linesAgree_attempt {s : State} {l : Line} {v : Level} {k : Nat} {onOk : State → State}
    (hok : s.answerAt 0 = .ok → (onOk (s.setLevel l v)).LinesAgree) : (s.attempt l v k onOk).LinesAgree :=
  State.attempt_induction hok fun _ => trivial

/-- R112: no preamble, so the clock before bit-pair 0 is the clock at the start. -/
theorem State.linesAgree_startTransmit (s : State) (f : Frame) (c d : Handle) : (s.startTransmit f c d).LinesAgree := by
  cases f with
  | nil => trivial
  | cons b bs => rfl

theorem exec_keeps_linesAgree {i : Instr} {s t : State} (hs : s.LinesAgree) (h : exec i s = .next t) :
    t.LinesAgree := by
  by_cases hc : ∃ ph, contextOf i = some (.call ph)
  · obtain ⟨ph, hc⟩ := hc
    obtain ⟨hp, ⟨b, -, rfl, hb, rfl⟩ | ⟨-, rfl, rfl⟩ | ⟨b, -, rfl, -, rfl⟩ | ⟨-, rfl, rfl⟩ | ⟨-, rfl, rfl⟩ |
      ⟨e, -, -, -, rfl⟩⟩ := microStep_cases hc h <;> simp only [State.LinesAgree, hp] at hs
    · refine State.linesAgree_attempt fun ha => ⟨hs, fun b' hb' => ?_⟩
      obtain rfl : b = b' := Option.some.inj (hb.symm.trans hb')
      simp [ha]
    · exact State.linesAgree_attempt fun ha => ⟨by simp [ha, levelReg], hs.2⟩
    · exact State.linesAgree_attempt fun ha => State.linesAgree_endBitPair (by simp [ha, levelReg]) b
    · exact State.linesAgree_attempt fun _ => trivial
    · cases ha : s.answerAt 0 with
      | ok => exact .inl (by simp [ha, levelReg])
      | err c => exact .inr (by simp [ha])
    · trivial
  · obtain ⟨a, c, d, f, -, -, -, -, -, rfl⟩ | ⟨r, w, rfl⟩ := operation_cases (not_exists.mp hc) h
    · exact s.linesAgree_startTransmit f c d
    · exact hs

/-- Settles O38: each of the three parts of the invariant is kept by itself. -/
theorem stepKeepsTheWireInvariant : Obligations.StepKeepsTheWireInvariant := by
  rintro s t ⟨hseq, hagree, hfollow⟩ h
  exact ⟨stepKeepsTheSequencerInvariant s t hseq h,
    step_keeps (fun _ _ _ => exec_keeps_linesAgree) (fun _ _ _ => trivial) (fun _ _ _ hs => hs) hagree h,
    step_keeps (fun _ _ _ => exec_keeps_linesFollowTrace) (fun _ _ _ => ⟨rfl, rfl⟩) (fun _ _ _ hs => hs) hfollow h⟩

/-! ### The serializer's closed form -/

/-- R42: position `k` of a stream of words is bit `31 - k % 32` of word `k / 32`. -/
theorem getElem?_flatMap_bits32 (ws : List Word) (k : Nat) :
    (ws.flatMap bits32)[k]? = ws[k / 32]?.map (·.getLsbD (31 - k % 32)) := by
  induction ws generalizing k with
  | nil => simp
  | cons w ws ih =>
    rw [List.flatMap_cons]
    by_cases hk : k < 32
    · rw [List.getElem?_append_left (by simpa using hk), Nat.div_eq_of_lt hk, Nat.mod_eq_of_lt hk, bits32_eq_getLsbD]
      simp [hk]
    · have hnext : k / 32 = (k - 32) / 32 + 1 := by omega
      have hbit : k % 32 = (k - 32) % 32 := by omega
      rw [List.getElem?_append_right (by simpa using hk), bits32_length, ih, hnext, hbit, List.getElem?_cons_succ]

/-- R83: after the start word come the pixel words and then zero words. -/
theorem frameWords_getElem?_succ {strip : Strip} {j : Nat} (hj : j < strip.length + latchCount strip.length) :
    (frameWords strip)[j + 1]? = some ((strip[j]?.map pixelWord).getD 0#32) := by
  rw [frameWords, List.getElem?_cons_succ]
  by_cases hpixel : j < strip.length
  · simp [List.getElem?_append_left, hpixel]
  · have hlatch : j - strip.length < latchCount strip.length := by omega
    simp [List.getElem?_append_right, latchWords, hlatch, Nat.le_of_not_lt hpixel]

/-- Settles O4: position `k` lies in word `k / 32`, the start word below 32, else pixel or latch word `(k - 32) / 32`. -/
theorem frameBitClosedForm : Obligations.FrameBitClosedForm := by
  intro strip k hk
  rw [encodeFrame, getElem?_flatMap_bits32, frameBit]
  by_cases hstart : k < 32
  · simp [hstart, Nat.div_eq_of_lt hstart, frameWords, startWord]
  · have hword : k / 32 = (k - 32) / 32 + 1 := by omega
    have hbit : k % 32 = (k - 32) % 32 := by omega
    have hj : (k - 32) / 32 < strip.length + latchCount strip.length := by
      unfold frameLength at hk
      omega
    rw [if_neg hstart, hword, hbit, frameWords_getElem?_succ hj]
    cases strip[(k - 32) / 32]? <;> simp

/-! ### What a TRANSMIT keeps to its return -/

/-- Settles O41: a busy block takes no TRANSMIT (R111), so with no reset landing it runs its phase's micro-step. -/
theorem frameIsFixedDuringTransmit : Obligations.FrameIsFixedDuringTransmit := by
  intro s t hbusy h
  obtain ⟨b, es, he, -⟩ | ⟨a, c, d, es, -, h⟩ | ⟨-, hidle, -⟩ | ⟨-, hidle, -⟩ | ⟨-, -, i, hc, h⟩ := step_cases h
  · exact .inr ⟨b, es, he⟩
  · obtain ⟨_, _, _, _, -, hidle, -⟩ | ⟨r, w, rfl⟩ := operation_cases (by simp [contextOf]) h
    · exact absurd hidle hbusy
    · exact .inl ⟨rfl, rfl, rfl, .inl rfl⟩
  · exact absurd hidle hbusy
  · exact absurd hidle hbusy
  · obtain ⟨l, v, -, p, i', e, r, rfl, hi⟩ := microStep_call hc h
    exact .inl (by simpa using hi)

end Sys2Proof.Machine
end

section
/-! PROOFS. The encoding (30_encoding.md): the decoder inverts the encoder, a PIXEL word's fields, frames up to masking,
the words of a frame, and a table word as what the next step runs. -/

namespace Sys2Proof.Machine

/-! ### The decoder inverts the encoder -/

theorem dropZeroWords_replicate (n : Nat) (rest : List Byte) :
    dropZeroWords n ((List.replicate n (wordBytes 0)).flatten ++ rest) = some rest := by
  induction n with
  | zero => rfl
  | succ n ih =>
    rw [List.replicate_succ, List.flatten_cons, List.append_assoc]
    exact ih

/-- A headed word after the start word is a pixel, whatever the number of pixels before it (R62). -/
theorem decode_pixelWord (p : Pixel) (n : Nat) (rest : List Byte) :
    decode (.frameBody n) (wordBytes (pixelWordLayout p) ++ rest) = .ok (.emitPixel p.masked) rest := by
  simp [decode, wordBytes, wordOfBytes_wordBytes, pixelWordLayout_eq_pixelWord]

/-- The zero words of R87 are the latch: the first of them, which is there, is no pixel (R63). -/
theorem decode_latchWords (n : Nat) (rest : List Byte) :
    decode (.frameBody n) ((List.replicate (latchCount n) (wordBytes 0)).flatten ++ rest) =
      .ok (.emitLatch n) rest := by
  obtain ⟨m, hm⟩ : ∃ m, latchCount n = m + 1 := ⟨_, (Nat.sub_add_cancel (latchCount_pos n)).symm⟩
  have hdrop := dropZeroWords_replicate (latchCount n) rest
  have hbytes : wordBytes 0 = [0#8, 0#8, 0#8, 0#8] := by decide
  have hzero : wordOfBytes 0#8 0#8 0#8 0#8 = 0#32 := by decide
  simp only [hm, List.replicate_succ, List.flatten_cons, hbytes, List.cons_append, List.nil_append] at hdrop ⊢
  simp [decode, hzero, hm, hdrop]

/-- At its place an instruction's encoding decodes to it with its masked fields, whatever bytes follow. -/
theorem decode_encode {i : Instr} {ctx : Context} {bytes : List Byte} (hc : contextOf i = some ctx)
    (he : encode i = some bytes) (rest : List Byte) : decode ctx (bytes ++ rest) = .ok i.masked rest := by
  cases i <;> cases hc <;> cases he
  case emitStart => rfl
  case emitPixel p => exact decode_pixelWord p 0 rest
  case emitLatch n => exact decode_latchWords n rest
  all_goals exact decode_microStep rfl rfl rest

theorem Pixel.masked_eq_self {p : Pixel} (hl : p.brightness < 32) (hr : p.red < 256) (hg : p.green < 256)
    (hb : p.blue < 256) : p.masked = p := by
  simp only [Pixel.masked, maskField, Config.briBits, Config.colBits, Nat.reducePow]
  rw [Nat.mod_eq_of_lt hl, Nat.mod_eq_of_lt hr, Nat.mod_eq_of_lt hg, Nat.mod_eq_of_lt hb]

/-- Settles O15, by the instructions that have an encoding. -/
theorem decodeInvertsEncode : Obligations.DecodeInvertsEncode :=
  ⟨fun _ _ _ rest hc he => decode_encode hc he rest, fun p n rest => ⟨_, rfl, decode_pixelWord p n rest⟩,
    fun _ hl hr hg hb => congrArg Instr.emitPixel (Pixel.masked_eq_self hl hr hg hb)⟩

/-- Settles O17, by running the decoder on the words written out. -/
theorem writtenOutWordsDecode : Obligations.WrittenOutWordsDecode := by
  unfold Obligations.WrittenOutWordsDecode
  decide

/-! ### The fields of a PIXEL word -/

/-- A field of the pixel word is the bits of its sum at the field's place. -/
theorem pixelWord_extractLsb' (p : Pixel) {start len n : Nat}
    (h : (pixelWord p).toNat / 2 ^ start % 2 ^ len = n % 2 ^ len) :
    (pixelWord p).extractLsb' start len = BitVec.ofNat len n := by
  apply BitVec.eq_of_toNat_eq
  rw [extractLsb'_toNat_div, BitVec.toNat_ofNat, h]

/-- Settles O9: in the sum of R65 no field reaches the next one. -/
theorem pixelWordFields : Obligations.PixelWordFields := by
  intro p
  have hsum := pixelWord_toNat p
  refine ⟨?header, ?brightness, ?blue, ?green, ?red, pixelWordLayout_eq_pixelWord p, by omega, by omega⟩
  all_goals
    refine pixelWord_extractLsb' p ?_
    rw [hsum]
    omega

/-! ### Frames up to masking -/

theorem pixelWord_masked (p : Pixel) : pixelWord p.masked = pixelWord p := by
  simp [pixelWord, Pixel.masked, maskField]

theorem encodeFrame_map_masked (strip : Strip) : encodeFrame (strip.map Pixel.masked) = encodeFrame strip := by
  simp [encodeFrame, frameWords, Function.comp_def, pixelWord_masked]

/-- ENCODE looks at a strip through its length and its frame only. -/
theorem exec_encode_congr {a b : Strip} (hlen : a.length = b.length) (hframe : encodeFrame a = encodeFrame b)
    (s : State) : exec (.encode a) s = exec (.encode b) s := by
  simp only [exec, execEncode, hlen, hframe]

/-- Settles O10: the frame is that of the masked strip, and DECODE recovers the masked strip from it. -/
theorem framesAgreeExactlyUpToMasking : Obligations.FramesAgreeExactlyUpToMasking := by
  refine fun a b => ⟨fun hmask => ?_, fun hframe => ?_⟩
  · have hframe : encodeFrame a = encodeFrame b := by
      rw [← encodeFrame_map_masked a, hmask, encodeFrame_map_masked]
    have hlen : a.length = b.length := by simpa using congrArg List.length hmask
    exact ⟨hframe, exec_encode_congr hlen hframe⟩
  · apply Option.some.inj
    rw [← decodeFrame_encodeFrame, hframe, decodeFrame_encodeFrame]

/-! ### The words of a frame -/

/-- R60: the word at each position of a frame. -/
theorem frameWords_word {strip : Strip} {k : Nat} {w : Word} (h : (frameWords strip)[k]? = some w) :
    if k = 0 ∨ strip.length < k then w = 0x00000000#32 else isPixelWord w = true := by
  cases k with
  | zero =>
    cases h
    rfl
  | succ j =>
    have hlt : j + 1 < (frameWords strip).length := (List.getElem?_eq_some_iff.mp h).1
    rw [frameWords_length] at hlt
    rw [frameWords_getElem?_succ (by omega)] at h
    cases h
    by_cases hj : j < strip.length
    · rw [if_neg (by omega)]
      simp [hj]
    · rw [if_pos (by omega)]
      simp [Nat.le_of_not_lt hj]

/-- R62: the headed words are the pixel words. -/
theorem isPixelWord_iff {w : Word} : isPixelWord w = true ↔ ∃ p : Pixel, pixelWord p = w := by
  constructor
  · intro h
    exact ⟨pixelOfWord w, by rw [← pixelWordLayout_eq_pixelWord, pixelWordLayout_pixelOfWord h]⟩
  · rintro ⟨p, rfl⟩
    exact isPixelWord_pixelWord p

/-- Settles O14, by the position of a word in the frame. -/
theorem everyWordIsStartPixelOrLatch : Obligations.EveryWordIsStartPixelOrLatch :=
  ⟨fun strip => ⟨fun _ _ => frameWords_word, rfl, frameWords_length strip⟩, fun _ => isPixelWord_iff⟩

/-! ### A placed table word -/

/-- The block's next action in a placed state is the placed instruction, with the caller's other calls to come. -/
theorem State.place_select (s : State) (i : Instr) :
    (s.place i).select = .run i ((s.place i).withCmds s.cmds) := by
  cases i
  case drvData b => simp [State.place, State.placeIn, State.select, State.withBit_getElem?, State.withCmds]
  all_goals simp [State.place, State.placeIn, State.placeCall, State.withPend, State.select, State.withCmds]

theorem step_place (s : State) (i : Instr) : step (s.place i) = exec i ((s.place i).withCmds s.cmds) := by
  rw [step_of_no_events (s.place_events i), stepBlock, s.place_select i]

/-- An instruction with an encoding completes where it is placed: an emitter completes in every state, and the placed
state has the phase, the frame bit and the pending error that a micro-step needs. -/
theorem step_place_completes (s : State) {i : Instr} {code : List Byte} (he : encode i = some code) :
    ∃ t, step (s.place i) = .next t := by
  cases i
  case encode => cases he
  case transmit => cases he
  case emitStart => exact ⟨_, step_place s .emitStart⟩
  case emitPixel p => exact ⟨_, step_place s (.emitPixel p)⟩
  case emitLatch n => exact ⟨_, step_place s (.emitLatch n)⟩
  all_goals rw [step_of_no_events (s.place_events _)]
  case drvData b => exact ⟨_, stepBlock_data rfl (s.withBit_getElem? b)⟩
  case drvClkRise => exact ⟨_, stepBlock_clkHi rfl⟩
  case drvClkFall => exact ⟨_, stepBlock_clkLo rfl (s.withBit_getElem? _)⟩
  case drvTail => exact ⟨_, stepBlock_tail rfl⟩
  case drvRstClk => exact ⟨_, stepBlock_rstClk rfl⟩
  case drvRstDat => exact ⟨_, stepBlock_rstDat rfl rfl⟩

/-- A table word is read by the decoder, so it stands for an instruction that has an encoding. -/
theorem encode_of_decodeTableWord {nbits w : Nat} {i : Instr} (h : decodeTableWord nbits w = some i) :
    ∃ code, encode i = some code := by
  unfold decodeTableWord at h
  split at h
  · cases h
  split at h <;> cases h
  rename_i hdecode
  obtain ⟨code, hcode, -⟩ := decodeAcceptsOnlyEncodings _ _ _ _ hdecode
  exact ⟨code, hcode⟩

/-- Settles O33: the placed state selects the instruction, and one that has an encoding completes there. -/
theorem placedWordRunsNext : Obligations.PlacedWordRunsNext := by
  intro s u nbits w i h hu
  have hplace : u = s.place i := by rw [hu, State.withFetchWord, h]
  obtain ⟨code, hcode⟩ := encode_of_decodeTableWord h
  subst hplace
  exact ⟨step_place s i, step_place_completes s hcode⟩

end Sys2Proof.Machine
end

section
/-! PROOFS. The frame encoder (40_frame_encoder.md): DECODE accepts the frames of ENCODE only, a TRANSMIT of such a frame,
the words and the length of a frame, and the emitters that build it. -/

namespace Sys2Proof.Machine

/-! ### DECODE and ENCODE are inverse to each other -/

/-- Settles O12: no latch word is a pixel word, so DECODE cuts the frame where ENCODE joined it. -/
theorem decodeRecoversMaskedStrip : Obligations.DecodeRecoversMaskedStrip := decodeFrame_encodeFrame

/-- Any 32 bits are the bits of a word (R42). -/
theorem exists_bits32_eq {bs : Frame} (h : bs.length = 32) : ∃ w, bits32 w = bs := by
  refine ⟨(BitVec.ofBoolListBE bs).cast h, List.ext_getElem (by simp [h]) fun k _ hk => ?_⟩
  simp [bits32, BitVec.getMsbD_ofBoolListBE, hk]

theorem bits32_wordOfBits {bs : Frame} (h : bs.length = 32) : bits32 (wordOfBits bs) = bs := by
  obtain ⟨w, rfl⟩ := exists_bits32_eq h
  rw [wordOfBits_bits32]

/-- A frame of whole words is its words, bit by bit. -/
theorem flatMap_bits32_frameToWords {n : Nat} {f : Frame} (h : f.length = 32 * n) :
    (frameToWords n f).flatMap bits32 = f := by
  induction n generalizing f with
  | zero => simpa [frameToWords] using (List.eq_nil_of_length_eq_zero h).symm
  | succ n ih =>
    have hhead : bits32 (wordOfBits (f.take 32)) = f.take 32 := bits32_wordOfBits (by simp; omega)
    have htail : (frameToWords n (f.drop 32)).flatMap bits32 = f.drop 32 := ih (by simp; omega)
    rw [frameToWords, List.flatMap_cons, hhead, htail, List.take_append_drop]

/-- R62: a word with the header is the pixel word of its fields. -/
theorem pixelWord_pixelOfWord {w : Word} (h : isPixelWord w = true) : pixelWord (pixelOfWord w) = w := by
  rw [← pixelWordLayout_eq_pixelWord, pixelWordLayout_pixelOfWord h]

theorem map_pixelWord_pixelOfWord {ws : List Word} (h : ∀ w ∈ ws, isPixelWord w = true) :
    (ws.map pixelOfWord).map pixelWord = ws := by
  rw [List.map_map]
  exact (List.map_congr_left (g := id) fun w hw => pixelWord_pixelOfWord (h w hw)).trans (List.map_id ws)

/-- R64: the fields of a word have the widths of R62. -/
theorem pixelOfWord_lt (w : Word) :
    (pixelOfWord w).brightness < 32 ∧ (pixelOfWord w).red < 256 ∧ (pixelOfWord w).green < 256 ∧
      (pixelOfWord w).blue < 256 :=
  ⟨(w.extractLsb' 24 5).isLt, (w.extractLsb' 0 8).isLt, (w.extractLsb' 8 8).isLt, (w.extractLsb' 16 8).isLt⟩

/-- The words that R92 accepts are the words of the strip it answers, which is read from pixel words. -/
theorem decodeWords_eq_some {ws : List Word} {strip : Strip} (h : decodeWords ws = some strip) :
    frameWords strip = ws ∧ ∃ px : List Word, strip = px.map pixelOfWord := by
  cases ws with
  | nil => cases h
  | cons w0 ws =>
    simp only [decodeWords] at h
    split at h <;> cases h
    rename_i hwords
    obtain ⟨rfl, hlatch⟩ := hwords
    refine ⟨?_, _, rfl⟩
    have htail : latchWords (ws.takeWhile isPixelWord).length = ws.dropWhile isPixelWord := hlatch.symm
    rw [frameWords, map_pixelWord_pixelOfWord fun w hw => List.mem_takeWhile_imp hw, List.length_map, htail,
      List.takeWhile_append_dropWhile]
    rfl

/-- What R92 accepts is a frame of whole words, and these words are accepted. -/
theorem decodeFrame_eq_some {f : Frame} {strip : Strip} (h : decodeFrame f = some strip) :
    f.length = 32 * (f.length / 32) ∧ decodeWords (frameToWords (f.length / 32) f) = some strip := by
  unfold decodeFrame at h
  split at h
  · cases h
  · exact ⟨by omega, h⟩

/-- Settles O13: an accepted frame is cut into words without loss, and these are the words of its answer. -/
theorem decodeAcceptsOnlyEncodedFrames : Obligations.DecodeAcceptsOnlyEncodedFrames := by
  intro f strip h
  obtain ⟨hlen, hwords⟩ := decodeFrame_eq_some h
  obtain ⟨hframe, px, rfl⟩ := decodeWords_eq_some hwords
  refine ⟨by rw [encodeFrame, hframe, flatMap_bits32_frameToWords hlen], fun p hp => ?_⟩
  obtain ⟨w, -, rfl⟩ := List.mem_map.mp hp
  exact pixelOfWord_lt w

/-! ### The states of a TRANSMIT between its call and its return -/

/-- A run of one more step is the run and then the step. -/
theorem runFor_succ_eq_next {n : Nat} {s t : State} (h : runFor (n + 1) s = .next t) :
    ∃ u, runFor n s = .next u ∧ step u = .next t := by
  induction n generalizing s with
  | zero =>
    refine ⟨s, rfl, ?_⟩
    cases hs : step s with
    | next u => rwa [runFor_succ hs] at h
    | fault f => simp [runFor, hs] at h
    | refused r => simp [runFor, hs] at h
  | succ n ih =>
    cases hs : step s with
    | next u =>
      rw [runFor_succ hs] at h ⊢
      exact ih h
    | fault f => simp [runFor, hs] at h
    | refused r => simp [runFor, hs] at h

/-- What the first step establishes and every step from a busy state keeps holds to the return. -/
theorem ReturnsAfter.induction {P : State → Prop} {n k : Nat} {s t u : State} (h : ReturnsAfter n s t)
    (hstart : ∀ v, step s = .next v → P v)
    (hstep : ∀ v w, P v → v.phase ≠ .idle → step v = .next w → P w)
    (hk : k < n) (hu : runFor (k + 1) s = .next u) : P u := by
  obtain ⟨-, -, -, hbusy⟩ := h
  induction k generalizing u with
  | zero =>
    obtain ⟨v, ⟨⟩, hv⟩ := runFor_succ_eq_next hu
    exact hstart u hv
  | succ k ih =>
    obtain ⟨v, hv, hvu⟩ := runFor_succ_eq_next hu
    exact hstep v u (ih (by omega) hv) (hbusy (k + 1) v k.succ_pos hk hv) hvu

/-- A TRANSMIT of `f` with no event coming: the invariant of the wire holds and the latched frame is `f`. -/
def State.Sends (s : State) (f : Frame) : Prop := s.WireInv ∧ s.fr = f ∧ s.events = []

theorem State.CallsTransmit.sends {s t : State} {f : Frame} {rest : List Instr} (h : s.CallsTransmit f rest)
    (ht : step s = .next t) : t.Sends f := by
  obtain ⟨hp, he, hb, a, c, d, hc, hcd, hf⟩ := h
  have hstart : step s = .next ((s.withCmds rest).startTransmit f c d) :=
    (step_of_call hp he hc).trans (exec_transmit_of_accepts hp hcd hf hb)
  cases hstart.symm.trans ht
  exact ⟨⟨State.startTransmit_sequencerInv _ f hcd, State.linesAgree_startTransmit _ f c d, rfl, rfl⟩, rfl, he⟩

theorem exec_events {i : Instr} {s t : State} (h : exec i s = .next t) : t.events = s.events := by
  obtain ⟨-, -, -, -, -, -, -, -, hevents, -⟩ := registersHaveTheirWriters i s t h
  exact hevents

/-- With no event coming, none comes to be. -/
theorem step_keeps_no_events {s t : State} (he : s.events = []) (h : step s = .next t) : t.events = [] := by
  have htick : s.tickEvents = s := by simp [State.tickEvents, he]
  obtain ⟨b, es, he', -⟩ | ⟨a, c, d, es, he', -⟩ | ⟨-, -, -, rfl⟩ | ⟨-, -, i, rest, -, h⟩ | ⟨-, -, i, -, h⟩ :=
    step_cases h
  · simp [he] at he'
  · simp [he] at he'
  · rw [htick, he]
  · rw [exec_events h, State.withCmds_events, htick, he]
  · rw [exec_events h, htick, he]

theorem State.Sends.step {s t : State} {f : Frame} (h : s.Sends f) (hbusy : s.phase ≠ .idle)
    (ht : step s = .next t) : t.Sends f := by
  obtain ⟨hwire, hf, he⟩ := h
  refine ⟨stepKeepsTheWireInvariant s t hwire ht, ?_, step_keeps_no_events he ht⟩
  obtain ⟨hfr, -⟩ | ⟨b, es, he'⟩ := frameIsFixedDuringTransmit s t hbusy ht
  · rw [hfr, hf]
  · simp [he] at he'

/-- After its start and to its return a TRANSMIT sends its frame. -/
theorem ReturnsAfter.sends {n k : Nat} {s t u : State} {f : Frame} {rest : List Instr} (hcalls : s.CallsTransmit f rest)
    (h : ReturnsAfter n s t) (hk : k < n) (hu : runFor (k + 1) s = .next u) : u.Sends f :=
  h.induction (fun _ => hcalls.sends) (fun _ _ hv hbusy hw => hv.step hbusy hw) hk hu

/-- R116: TAIL is entered after a last bit 1 only. -/
theorem State.Sends.getLast?_of_tail {s : State} {f : Frame} (h : s.Sends f) (hp : s.phase = .tail) :
    f.getLast? = some true := by
  obtain ⟨⟨⟨-, hseq⟩, -⟩, rfl, -⟩ := h
  simp only [hp] at hseq
  obtain ⟨hlast, hbit, -⟩ := hseq
  rw [List.getLast?_eq_getElem?, ← hlast, Nat.add_sub_cancel, hbit]

/-- R122: a TRANSMIT of a frame whose last bit is 0 is never in TAIL. -/
theorem ReturnsAfter.phase_ne_tail {n k : Nat} {s t u : State} {f : Frame} {rest : List Instr}
    (hcalls : s.CallsTransmit f rest) (hf : f.getLast? = some false) (h : ReturnsAfter n s t) (hk : k ≤ n)
    (hu : runFor k s = .next u) : u.phase ≠ .tail := by
  cases k with
  | zero =>
    cases hu
    simp [hcalls.1]
  | succ k =>
    intro hp
    have hlast := (h.sends hcalls hk hu).getLast?_of_tail hp
    simp [hf] at hlast

/-! ### The calls of an ENCODE frame -/

theorem okTrace_of_last_false {f : Frame} (hf : f.getLast? = some false) (c d : Handle) :
    okTrace c d f = f.flatMap (bitCalls c d) := by simp [okTrace, hf]

theorem flatMap_bitCalls_length (c d : Handle) (f : Frame) : (f.flatMap (bitCalls c d)).length = 3 * f.length := by
  simp [List.length_flatMap, bitCalls, Nat.mul_comm]

/-- R116: a last bit 0 leaves both lines Low. -/
theorem foldl_after_of_last_false {f : Frame} (hf : f.getLast? = some false) (c d : Handle) (l : Line)
    (start : LineLevel) : (f.flatMap (bitCalls c d)).foldl (fun v call => call.after l v) start = .low := by
  obtain ⟨bs, rfl⟩ := List.getLast?_eq_some_iff.mp hf
  rw [List.flatMap_append, List.foldl_append]
  cases l <;> rfl

/-- Settles O52: the frame ends with a latch bit 0, so its calls are those of its bit-pairs and the last pair leaves both
lines Low. -/
theorem encoderFrameTransmits : Obligations.EncoderFrameTransmits := by
  intro s strip rest hcalls hok
  have hlast := encodeFrame_getLast? strip
  obtain ⟨n, t, c, d, hreturns, hresult, -, -, -, htrace⟩ :=
    transmit_of_all_ok hcalls (by rwa [okCalls_encodeFrame])
  rw [okTrace_of_last_false hlast] at htrace
  obtain ⟨k, rfl⟩ := Nat.exists_eq_add_one_of_ne_zero hreturns.2.1.ne'
  obtain ⟨⟨-, -, hclk, hdat⟩, -⟩ := hreturns.sends hcalls k.lt_succ_self hreturns.1
  refine ⟨k + 1, t, hreturns, hresult, ?_, ?_, fun j u hu hj => hreturns.phase_ne_tail hcalls hlast hj hu, ?_, ?_⟩
  · rw [htrace, flatMap_bitCalls_length, encodeFrame_length]
    rfl
  · rw [htrace, List.map_flatMap]
    rfl
  · rw [hclk, htrace, foldl_after_of_last_false hlast]
  · rw [hdat, htrace, foldl_after_of_last_false hlast]

/-! ### The length of a frame and its latch -/

/-- Settles O2: a frame is whole words, and a start word and a latch word are among them. -/
theorem encodedFrameLength : Obligations.EncodedFrameLength := by
  intro strip s hstrip
  have hlen : (encodeFrame strip).length = 32 * (1 + strip.length + max 1 ((strip.length + 63) / 64)) :=
    encodeFrame_length strip
  exact ⟨encodeFrame strip, exec_encode_of_accepts hstrip, hlen, by omega, by omega⟩

/-- R81: `m` words are the latch of the strips of at most `64 * m` pixels that `m - 1` words are too few for. -/
theorem latchCount_eq {n m : Nat} (hm : 1 ≤ m) (hlow : 64 * (m - 1) + 1 ≤ n) (hhigh : n ≤ 64 * m) :
    latchCount n = m := by
  unfold latchCount
  omega

/-- R81: up to 64 pixels, none included, the latch is one word. -/
theorem latchCount_of_le {n : Nat} (h : n ≤ 64) : latchCount n = 1 := by
  unfold latchCount
  omega

theorem latchWords_of_le {n : Nat} (h : n ≤ 64) : latchWords n = [0#32] := by
  simp [latchWords, latchCount_of_le h]

/-- R81, the source's form: half a clock pulse per pixel, in words of 32. -/
theorem latchCount_eq_halves (n : Nat) : latchCount n = max 1 (((n + 1) / 2 + 31) / 32) := by
  unfold latchCount
  omega

theorem exec_emitLatch (n : Nat) (s : State) :
    exec (.emitLatch n) s = .next { s with words := s.words ++ latchWords n } := rfl

/-- Settles O1: every form of R81 is the one ceiling, and EMIT_LATCH appends that many zero words. -/
theorem latchIsExactlyTheMinimum : Obligations.LatchIsExactlyTheMinimum :=
  fun n => ⟨rfl, latchCount_eq_halves n, latchCount_of_le, fun _ => latchCount_eq, exec_emitLatch n⟩

/-- Settles O8: the count is `latchCount`, which is 2 for the 65 pixels that one word is too few for. -/
theorem emitLatchGivesZeroWords : Obligations.EmitLatchGivesZeroWords := by
  refine fun n s => ⟨latchCount n, exec_emitLatch n s, rfl, latchCount_pos n, latchCount_of_le, ?_⟩
  rintro rfl
  exact latchCount_eq (by decide) (by decide) (by decide)

/-! ### The words that the emitters give -/

theorem exec_emitStart (s : State) : exec .emitStart s = .next { s with words := [startWord] } := rfl

theorem exec_emitPixel (p : Pixel) (s : State) :
    exec (.emitPixel p) s = .next { s with words := s.words ++ [pixelWord p] } := rfl

/-- Settles O7: the word is the sum of R65, whose fields do not reach the header. -/
theorem emitPixelGivesThePixelWord : Obligations.EmitPixelGivesThePixelWord := by
  refine ⟨exec_emitPixel, fun p => ?_, by decide, by decide, by decide, fun p => ?_⟩
  · obtain ⟨hheader, -⟩ := pixelWordFields p
    exact hheader
  · obtain ⟨-, hbrightness, -⟩ := pixelWordFields { p with brightness := 32 }
    simpa using hbrightness

/-- R62, R63: the header tells a pixel word from a start or latch word. -/
theorem pixelWord_ne_zero (p : Pixel) : pixelWord p ≠ 0#32 := by
  intro h
  have hpixel := isPixelWord_pixelWord p
  simp [h] at hpixel

theorem bits32_zero : bits32 0#32 = List.replicate 32 false := by decide

/-- Settles O6: the start word is the head of `frameWords`, and the words of the pixels are headed. -/
theorem emitStartGivesTheZeroWord : Obligations.EmitStartGivesTheZeroWord := by
  refine ⟨exec_emitStart, fun strip => ⟨rfl, rfl, fun k p hp => ?_, ?_⟩⟩
  · have hk : k < strip.length := (List.getElem?_eq_some_iff.mp hp).1
    rw [frameWords_getElem?_succ (by omega), hp]
    simp [pixelWord_ne_zero]
  · rw [encodeFrame, frameWords, startWord, List.flatMap_cons, bits32_zero, List.take_left' (by simp)]

/-! ### ENCODE written out -/

/-- Settles O3: `encodeFrame` is R83's frame, its serializer read by word bit (R42). -/
theorem encodeReturnsTheFrame : Obligations.EncodeReturnsTheFrame := by
  intro strip s hstrip
  have hbits : bits32 = fun w => (List.range 32).map fun k => w.getLsbD (31 - k) := funext bits32_eq_getLsbD
  rw [exec_encode_of_accepts hstrip, encodeFrame, hbits]
  rfl

/-- Settles O11: both strips have one latch word. -/
theorem shortStrips : Obligations.ShortStrips := by
  refine ⟨fun s => ?_, fun p s hstrip => ?_⟩
  · rw [exec_encode_of_accepts (by simp)]
    simp [encodeFrame, frameWords, startWord, latchWords_of_le, bits32_zero]
  · rw [exec_encode_of_accepts hstrip]
    simp [encodeFrame, frameWords, startWord, latchWords_of_le, bits32_zero]

/-! ### The emitters in R83's order -/

/-- The emitters have given `ws` so far, and the caller's calls still to come are `rest`. -/
def State.withEmitted (s : State) (rest : List Instr) (ws : List Word) : State := { s with cmds := rest, words := ws }

theorem step_withEmitted {s : State} (hp : s.phase = .idle) (he : s.events = []) (i : Instr) (rest : List Instr)
    (ws : List Word) : step (s.withEmitted (i :: rest) ws) = exec i (s.withEmitted rest ws) :=
  step_of_call (s := s.withEmitted (i :: rest) ws) hp he rfl

/-- The caller's calls of EMIT_PIXEL, pixel by pixel in strip order. -/
theorem runFor_emitPixels {s : State} (hp : s.phase = .idle) (he : s.events = []) (strip : Strip) (rest : List Instr)
    (ws : List Word) :
    runFor strip.length (s.withEmitted (strip.map Instr.emitPixel ++ rest) ws) =
      .next (s.withEmitted rest (ws ++ strip.map pixelWord)) := by
  induction strip generalizing ws with
  | nil => simp [runFor]
  | cons p ps ih =>
    have hstep : step (s.withEmitted (.emitPixel p :: (ps.map Instr.emitPixel ++ rest)) ws) =
        .next (s.withEmitted (ps.map Instr.emitPixel ++ rest) (ws ++ [pixelWord p])) := step_withEmitted hp he _ _ ws
    rw [List.length_cons, List.map_cons, List.cons_append, runFor_succ hstep, ih, List.append_assoc]
    rfl

/-- Settles O5: the start word, a word per pixel and the latch words are `frameWords`. -/
theorem emittersBuildTheEncodedFrame : Obligations.EmittersBuildTheEncodedFrame := by
  intro strip s rest hp he hc
  have hstart : step s =
      .next (s.withEmitted (strip.map Instr.emitPixel ++ .emitLatch strip.length :: rest) [startWord]) := by
    rw [List.cons_append, List.append_assoc] at hc
    exact step_of_call hp he hc
  have hpixels := runFor_emitPixels hp he strip (.emitLatch strip.length :: rest) [startWord]
  have hlatch : step (s.withEmitted (.emitLatch strip.length :: rest) ([startWord] ++ strip.map pixelWord)) =
      .next (s.withEmitted rest (frameWords strip)) := step_withEmitted hp he _ _ _
  refine ⟨frameWords strip, ?_, exec_encode_of_accepts⟩
  rw [runFor_succ hstart, runFor_add hpixels, runFor_succ hlatch]
  rfl

end Sys2Proof.Machine
end

section
/-! PROOFS. A TRANSMIT as a whole (41_line_driver.md 4 and 5): the micro-steps are the sequential form of R120, and what
that form says of the calls, the reported position, the return and the samples. -/

namespace Sys2Proof.Machine

/-! ### What the calls act on -/

/-- The part of the state that calls read and write, all other fields at reset: what the sequential form of R120, which
has no sequencer, shares with the micro-steps. -/
def State.wire (s : State) : State :=
  { State.reset with
    clk := s.clk, dat := s.dat, clockLine := s.clockLine, dataLine := s.dataLine
    trace := s.trace, answers := s.answers, draws := s.draws }

@[simp] theorem State.goto_wire (s : State) (p : Phase) : (s.goto p).wire = s.wire := rfl
@[simp] theorem State.abort_wire (s : State) (k : Nat) (l : Line) (c : Cause) : (s.abort k l c).wire = s.wire := rfl
@[simp] theorem State.finish_wire (s : State) (r : TxResult) : (s.finish r).wire = s.wire := rfl
@[simp] theorem State.report_wire (s : State) (e : LineIOError) : (s.report e).wire = s.wire := rfl

@[simp] theorem State.setLevel_wire (s : State) (l : Line) (v : Level) :
    (s.setLevel l v).wire = s.wire.setLevel l v := by
  cases l <;> rfl

section SameWire

variable {s q : State} (h : s.wire = q.wire)
include h

theorem State.answerAt_of_wire (k : Nat) : s.answerAt k = q.answerAt k := (congrArg (State.answerAt · k) h :)

theorem State.clk_of_wire : s.clk = q.clk := (congrArg State.clk h :)

theorem State.dat_of_wire : s.dat = q.dat := (congrArg State.dat h :)

theorem State.trace_of_wire : s.trace = q.trace := (congrArg State.trace h :)

theorem State.clockLine_of_wire : s.clockLine = q.clockLine := (congrArg State.clockLine h :)

theorem State.dataLine_of_wire : s.dataLine = q.dataLine := (congrArg State.dataLine h :)

end SameWire

/-! ### The loop of the sequential form -/

/-- R120, the three calls of one bit of the loop. -/
def State.callBit (q : State) (b : Bool) : State :=
  ((q.setLevel .data (lvl b)).setLevel .clock .high).setLevel .clock .low

@[simp] theorem State.callBit_answerAt (q : State) (b : Bool) (k : Nat) :
    (q.callBit b).answerAt k = q.answerAt (k + 3) := by simp [State.callBit]

theorem State.callBit_trace_length (q : State) (b : Bool) : (q.callBit b).trace.length = q.trace.length + 3 := by
  simp [State.callBit]

theorem State.putBit_wire {s q : State} (h : s.wire = q.wire) (b : Bool) : (s.putBit b).wire = (q.callBit b).wire := by
  simp [State.putBit, State.callBit, h]

section Loop

variable {q : State} {c : Cause} (k : Nat) (b : Bool) (bs : Frame)

theorem seqBits_data_fails (h : q.answerAt 0 = .err c) :
    seqBits q k (b :: bs) = (some { bitIndex := k, line := .data, cause := c }, q.setLevel .data (lvl b)) := by
  simp [seqBits, h]

theorem seqBits_rise_fails (h0 : q.answerAt 0 = .ok) (h1 : q.answerAt 1 = .err c) :
    seqBits q k (b :: bs) =
      (some { bitIndex := k, line := .clock, cause := c }, (q.setLevel .data (lvl b)).setLevel .clock .high) := by
  simp [seqBits, h0, h1]

theorem seqBits_fall_fails (h0 : q.answerAt 0 = .ok) (h1 : q.answerAt 1 = .ok) (h2 : q.answerAt 2 = .err c) :
    seqBits q k (b :: bs) = (some { bitIndex := k, line := .clock, cause := c }, q.callBit b) := by
  simp [seqBits, State.callBit, h0, h1, h2]

theorem seqBits_bit (h0 : q.answerAt 0 = .ok) (h1 : q.answerAt 1 = .ok) (h2 : q.answerAt 2 = .ok) :
    seqBits q k (b :: bs) = seqBits (q.callBit b) (k + 1) bs := by
  simp [seqBits, State.callBit, h0, h1, h2]

end Loop

/-- R120 after the loop over the bits of `f`. -/
def seqReturn (f : Frame) : Option LineIOError × State → TxResult × State
  | (some e, t) => seqAbort e t
  | (none, t) =>
    if f.getLast? = some true then
      match t.answerAt 0 with
      | .ok => (.ok, t.setLevel .data .low)
      | .err c => seqAbort { bitIndex := f.length - 1, line := .data, cause := c } (t.setLevel .data .low)
    else (.ok, t)

theorem seqTransmit_eq_seqReturn (q : State) (f : Frame) : seqTransmit q f = seqReturn f (seqBits q 0 f) := rfl

/-! ### The micro-steps return as the sequential form does -/

/-- The busy run from `s` comes back to IDLE with the outcome of `r`, and its calls did what those of `r` did. -/
def State.ReturnsAs (s : State) (r : TxResult × State) : Prop :=
  ∃ n t, BusyRun n s t ∧ t.phase = .idle ∧ t.result = some r.1 ∧ t.wire = r.2.wire

theorem State.ReturnsAs.step {s u : State} {r : TxResult × State} (hu : u.ReturnsAs r) (hp : s.phase ≠ .idle)
    (h : step s = .next u) : s.ReturnsAs r := by
  obtain ⟨n, t, hrun, ht⟩ := hu
  exact ⟨n + 1, t, ⟨hp, u, h, hrun⟩, ht⟩

theorem State.returnsAs_of_idle {s : State} {r : TxResult × State} (hp : s.phase = .idle) (hr : s.result = some r.1)
    (hw : s.wire = r.2.wire) : s.ReturnsAs r := ⟨0, s, rfl, hp, hr, hw⟩

/-- R118, R119: restoration is R120's `ABORT`. -/
theorem State.returnsAs_seqAbort {s q : State} {e : LineIOError} (hp : s.phase = .rstClk) (he : s.events = [])
    (hpend : s.pend = some e) (hw : s.wire = q.wire) : s.ReturnsAs (seqAbort e q) := by
  have hclk : step s = .next ((s.setLevel .clock .low).goto .rstDat) := by
    rw [step_of_no_events he, stepBlock_rstClk hp]
  have hdat : step ((s.setLevel .clock .low).goto .rstDat) =
      .next ((((s.setLevel .clock .low).goto .rstDat).setLevel .data .low).report e) := by
    rw [step_of_no_events (by simpa using he), stepBlock_rstDat rfl (by simpa using hpend)]
  refine .step (.step (State.returnsAs_of_idle rfl rfl ?_) (by simp) hdat) (by simp [hp]) hclk
  simp [seqAbort, hw]

/-- R114 to R117: a call of a bit-pair or of the tail, which R120 makes too: it aborts where R120 aborts. -/
theorem State.ReturnsAs.attempt {s q : State} {r : TxResult × State} {l : Line} {v : Level} {k : Nat}
    {onOk : State → State} (hp : s.phase ≠ .idle) (he : s.events = []) (hw : s.wire = q.wire)
    (h : stepBlock s = .next (s.attempt l v k onOk))
    (hok : q.answerAt 0 = .ok → (onOk (s.setLevel l v)).ReturnsAs r)
    (herr : ∀ c, q.answerAt 0 = .err c → r = seqAbort { bitIndex := k, line := l, cause := c } (q.setLevel l v)) :
    s.ReturnsAs r := by
  refine .step ?_ hp (by rw [step_of_no_events he, h])
  rw [← State.answerAt_of_wire hw] at hok herr
  obtain ⟨ha, heq⟩ | ⟨c, ha, heq⟩ := s.attempt_cases l v k onOk <;> rw [heq]
  · exact hok ha
  · rw [herr c ha]
    exact State.returnsAs_seqAbort rfl (by simpa using he) rfl (by simp [hw])

/-- R114 to R116: one bit-pair, one turn of the loop of R120. -/
theorem State.returnsAs_bitPair {s q : State} {b : Bool} {bs : Frame} (hp : s.phase = .data) (he : s.events = [])
    (hb : s.fr[s.i]? = some b) (hw : s.wire = q.wire)
    (hnext : ((s.putBit b).endBitPair b).ReturnsAs (seqReturn s.fr (seqBits (q.callBit b) (s.i + 1) bs))) :
    s.ReturnsAs (seqReturn s.fr (seqBits q s.i (b :: bs))) := by
  have hw1 : (s.setLevel .data (lvl b)).wire = (q.setLevel .data (lvl b)).wire := by simp [hw]
  have hw2 : (((s.setLevel .data (lvl b)).goto .clkHi).setLevel .clock .high).wire =
      ((q.setLevel .data (lvl b)).setLevel .clock .high).wire := by simp [hw]
  refine .attempt (by simp [hp]) he hw (stepBlock_data hp hb) (fun h0 => ?_) fun c h0 => ?_
  case refine_2 => rw [seqBits_data_fails _ _ _ h0]; rfl
  refine .attempt (by simp) he hw1 (stepBlock_clkHi rfl) (fun h1 => ?_) fun c h1 => ?_
  case refine_2 => rw [seqBits_rise_fails _ _ _ h0 (by simpa using h1)]; rfl
  refine .attempt (by simp) he hw2 (stepBlock_clkLo rfl hb) (fun h2 => ?_) fun c h2 => ?_
  case refine_2 => rw [seqBits_fall_fails _ _ _ h0 (by simpa using h1) (by simpa using h2)]; rfl
  rwa [seqBits_bit _ _ _ h0 (by simpa using h1) (by simpa using h2)]

/-- R116, R117: after the last bit-pair the TRANSMIT returns, by the tail if the last bit is 1. -/
theorem State.returnsAs_lastBit {s q : State} {b : Bool} (he : s.events = []) (hlast : ¬ s.i + 1 < s.fr.length)
    (hb : s.fr.getLast? = some b) (hw : s.wire = q.wire) : (s.endBitPair b).ReturnsAs (seqReturn s.fr (none, q)) := by
  obtain ⟨hlt, -⟩ | ⟨-, rfl, heq⟩ | ⟨-, rfl, heq⟩ := s.endBitPair_cases b
  · exact absurd hlt hlast
  · rw [heq]
    refine .attempt (by simp) he hw (stepBlock_tail rfl) (fun h0 => ?_) fun c h0 => by
      simp [seqReturn, hb, h0]
    exact State.returnsAs_of_idle rfl (by simp [seqReturn, hb, h0])
      (by simp [seqReturn, hb, h0, hw])
  · rw [heq]
    exact State.returnsAs_of_idle rfl (by simp [seqReturn, hb]) (by simpa [seqReturn, hb] using hw)

theorem getLast?_of_drop {f : Frame} {i : Nat} {b : Bool} (h : f.drop i = [b]) : f.getLast? = some b := by
  rw [← List.take_append_drop i f, h, List.getLast?_concat]

/-- R120: from the first call of a bit-pair on, the micro-steps return as the rest of the loop does. -/
theorem State.returnsAs_seqBits {s q : State} {b : Bool} {bs : Frame} (hp : s.phase = .data) (he : s.events = [])
    (hf : s.fr.drop s.i = b :: bs) (hw : s.wire = q.wire) :
    s.ReturnsAs (seqReturn s.fr (seqBits q s.i (b :: bs))) := by
  induction bs generalizing s q b with
  | nil =>
    have hlast : ¬ s.i + 1 < s.fr.length := by simp [length_of_drop hf]
    exact State.returnsAs_bitPair hp he (getElem?_of_drop hf) hw
      (State.returnsAs_lastBit (s := s.putBit b) he hlast (getLast?_of_drop hf) (State.putBit_wire hw b))
  | cons b' bs ih =>
    have hlt : s.i + 1 < s.fr.length := by simp [length_of_drop hf]
    have hend : (s.putBit b).endBitPair b = { s.putBit b with i := s.i + 1, phase := .data } := if_pos hlt
    have hdrop : s.fr.drop (s.i + 1) = b' :: bs := by rw [← List.tail_drop, hf, List.tail_cons]
    refine State.returnsAs_bitPair hp he (getElem?_of_drop hf) hw ?_
    rw [hend]
    exact ih (s := { s.putBit b with i := s.i + 1, phase := .data }) rfl he hdrop (State.putBit_wire hw b)

/-! ### From the call to the return -/

/-- A busy block that no event interrupts runs its phase's micro-step. -/
theorem step_microStep {s t : State} (hp : s.phase ≠ .idle) (hd : s.dueEvent = none) (h : step s = .next t) :
    ∃ i, contextOf i = some (.call s.phase) ∧ exec i s.tickEvents = .next t := by
  obtain ⟨b, es, he, -⟩ | ⟨a, c, d, es, he, -⟩ | ⟨-, hidle, -⟩ | ⟨-, hidle, -⟩ | ⟨-, -, hi⟩ := step_cases h
  · simp [State.dueEvent, he] at hd
  · simp [State.dueEvent, he] at hd
  · exact absurd hidle hp
  · exact absurd hidle hp
  · exact hi

/-- R46: with no event coming, every step of a busy run is one call, and the caller's calls wait. -/
theorem BusyRun.calls {n : Nat} {s t : State} (h : BusyRun n s t) (he : s.events = []) :
    t.trace.length = s.trace.length + n ∧ t.cmds = s.cmds := by
  induction n generalizing s with
  | zero => cases h; simp
  | succ n ih =>
    obtain ⟨hp, u, hu, h⟩ := h
    obtain ⟨hlen, hcmds⟩ := ih h (step_keeps_no_events he hu)
    obtain ⟨i, hc, hexec⟩ := step_microStep hp (by simp [State.dueEvent, he]) hu
    obtain ⟨l, v, -, p, j, e, r, rfl, -⟩ := microStep_call hc hexec
    refine ⟨?_, by simpa using hcmds⟩
    rw [hlen]
    simp
    omega

/-- Two returns of one TRANSMIT are the same. -/
theorem ReturnsAfter.unique {n m : Nat} {s t u : State} (ht : ReturnsAfter n s t) (hu : ReturnsAfter m s u) :
    n = m ∧ t = u := by
  obtain ⟨hrunt, hn, hidlet, hbusyt⟩ := ht
  obtain ⟨hrunu, hm, hidleu, hbusyu⟩ := hu
  obtain hlt | rfl | hlt := Nat.lt_trichotomy n m
  · exact absurd hidlet (hbusyu n t hn hlt hrunt)
  · exact ⟨rfl, Host.Outcome.next.inj (hrunt.symm.trans hrunu)⟩
  · exact absurd hidleu (hbusyt m u hm hlt hrunu)

/-- The state in which R120's loop starts: the handles are bound and no call is recorded. -/
def State.seqStart (s : State) (c d : Handle) : State := { s with clockLine := c, dataLine := d, trace := [] }

/-- R112, R120: an acceptable TRANSMIT returns as its sequential form does, one step for the start and one for each
call. -/
theorem transmit_returns_as_seqTransmit {s : State} {f : Frame} {a : FrameArg} {c d : Handle} {rest : List Instr}
    (hp : s.phase = .idle) (he : s.events = []) (hcmds : s.cmds = .transmit a c d :: rest) (hcd : c ≠ d)
    (hf : resolveFrame s.returned a = some f) (hb : s.params.acceptsFrame f.length = true) :
    ∃ n t, ReturnsAfter (n + 1) s t ∧ t.result = some (seqTransmit (s.seqStart c d) f).1 ∧
      t.wire = (seqTransmit (s.seqStart c d) f).2.wire ∧ t.cmds = rest ∧ t.trace.length = n := by
  have hstart : step s = .next ((s.withCmds rest).startTransmit f c d) :=
    (step_of_call hp he hcmds).trans (exec_transmit_of_accepts hp hcd hf hb)
  have hreturns : ((s.withCmds rest).startTransmit f c d).ReturnsAs (seqTransmit (s.seqStart c d) f) := by
    rw [seqTransmit_eq_seqReturn]
    cases f with
    | nil => exact State.returnsAs_of_idle rfl rfl rfl
    | cons b bs => exact State.returnsAs_seqBits (s := (s.withCmds rest).startTransmit (b :: bs) c d) rfl he rfl rfl
  obtain ⟨n, t, hrun, hidle, hresult, hwire⟩ := hreturns
  obtain ⟨hlen, hrest⟩ := hrun.calls he
  exact ⟨n, t, hrun.returnsAfter hstart hidle, hresult, hwire, hrest, by simpa using hlen⟩

/-- Settles O48: by the loop, each bit-pair is three micro-steps and an abort is two. -/
theorem microStepsAreTheSequentialForm : Obligations.MicroStepsAreTheSequentialForm := by
  intro s f a c d rest hp he hcmds hcd hf hb
  obtain ⟨n, t, hreturns, hresult, hwire, hrest, -⟩ := transmit_returns_as_seqTransmit hp he hcmds hcd hf hb
  exact ⟨n + 1, t, hreturns, hresult, State.trace_of_wire hwire, State.clk_of_wire hwire, State.dat_of_wire hwire,
    hrest, State.answerAt_of_wire hwire⟩

/-! ### What the sequential form reports -/

/-- Of the coming answers, number `m` (0-based) is the first failure, of cause `c`. -/
def State.FirstFails (s : State) (m : Nat) (c : Cause) : Prop :=
  (∀ j, j < m → s.answerAt j = .ok) ∧ s.answerAt m = .err c

/-- The first `n` coming answers are `Ok`, or one of them is the first failure. -/
theorem State.all_ok_or_firstFails (s : State) (n : Nat) :
    (∀ j, j < n → s.answerAt j = .ok) ∨ ∃ m c, m < n ∧ s.FirstFails m c := by
  induction n with
  | zero => simp
  | succ n ih =>
    obtain hok | ⟨m, c, hm, hfail⟩ := ih
    · cases hn : s.answerAt n with
      | ok => exact .inl fun j hj => (Nat.lt_succ_iff_lt_or_eq.mp hj).elim (hok j) fun hjn => hjn ▸ hn
      | err c => exact .inr ⟨n, c, n.lt_succ_self, hok, hn⟩
    · exact .inr ⟨m, c, hm.trans n.lt_succ_self, hfail⟩

/-- R120: with all its calls answered `Ok` the loop sends every bit. -/
theorem seqBits_of_all_ok {q : State} (k : Nat) {f : Frame} (hok : ∀ j, j < 3 * f.length → q.answerAt j = .ok) :
    ∃ t, seqBits q k f = (none, t) ∧ t.trace.length = q.trace.length + 3 * f.length ∧
      ∀ j, t.answerAt j = q.answerAt (j + 3 * f.length) := by
  induction f generalizing q k with
  | nil => exact ⟨q, rfl, rfl, fun _ => rfl⟩
  | cons b bs ih =>
    simp only [List.length_cons] at hok ⊢
    rw [seqBits_bit k b bs (hok 0 (by omega)) (hok 1 (by omega)) (hok 2 (by omega))]
    obtain ⟨t, hseq, htrace, hshift⟩ :=
      ih (q := q.callBit b) (k + 1) fun j hj => by simpa using hok (j + 3) (by omega)
    refine ⟨t, hseq, by rw [htrace, State.callBit_trace_length]; omega, fun j => ?_⟩
    rw [hshift, State.callBit_answerAt]
    rfl

/-- R120, R142: the first failed call ends the loop with the error of its bit-pair, three calls to a pair. -/
theorem seqBits_of_firstFails {q : State} (k : Nat) {f : Frame} {m : Nat} {c : Cause} (hm : m < 3 * f.length)
    (h : q.FirstFails m c) :
    ∃ t, seqBits q k f =
        (some { bitIndex := k + m / 3, line := if m % 3 = 0 then .data else .clock, cause := c }, t) ∧
      t.trace.length = q.trace.length + m + 1 := by
  induction f generalizing q k m with
  | nil => simp at hm
  | cons b bs ih =>
    obtain ⟨hok, herr⟩ := h
    match m with
    | 0 => exact ⟨_, seqBits_data_fails k b bs herr, by simp⟩
    | 1 => exact ⟨_, seqBits_rise_fails k b bs (hok 0 (by decide)) herr, by simp⟩
    | 2 => exact ⟨_, seqBits_fall_fails k b bs (hok 0 (by decide)) (hok 1 (by decide)) herr, q.callBit_trace_length b⟩
    | m + 3 =>
      have hfail : (q.callBit b).FirstFails m c :=
        ⟨fun j hj => by simpa using hok (j + 3) (by omega), by simpa using herr⟩
      obtain ⟨t, hseq, htrace⟩ := ih (k + 1) (by simp only [List.length_cons] at hm; omega) hfail
      refine ⟨t, ?_, by rw [htrace, State.callBit_trace_length]; omega⟩
      rw [seqBits_bit k b bs (hok 0 (by omega)) (hok 1 (by omega)) (hok 2 (by omega)), hseq, Nat.add_mod_right,
        Nat.add_div_right m (by decide)]
      simp only [Nat.add_assoc, Nat.add_comm 1]

theorem okCalls_eq (f : Frame) : okCalls f = 3 * f.length + if f.getLast? = some true then 1 else 0 := rfl

theorem seqAbort_trace_length (e : LineIOError) (q : State) :
    (seqAbort e q).2.trace.length = q.trace.length + 2 := by simp [seqAbort]

/-- R121: with all its calls answered `Ok`, R120 returns `Ok` after them. -/
theorem seqTransmit_of_all_ok {q : State} {f : Frame} (hok : ∀ j, j < okCalls f → q.answerAt j = .ok) :
    (seqTransmit q f).1 = .ok ∧ (seqTransmit q f).2.trace.length = q.trace.length + okCalls f := by
  rw [okCalls_eq] at hok ⊢
  obtain ⟨t, hseq, htrace, hshift⟩ := seqBits_of_all_ok (q := q) 0 (f := f) fun j hj => hok j (by omega)
  rw [seqTransmit_eq_seqReturn, hseq]
  by_cases hlast : f.getLast? = some true
  · have htail : t.answerAt 0 = .ok := by
      rw [hshift]
      exact hok _ (by simp [hlast])
    simp [seqReturn, hlast, htail, htrace, Nat.add_assoc]
  · simp [seqReturn, hlast, htrace]

/-- R121: the first failed call is the last before restoration, which is two calls, and R120 returns its error. -/
theorem seqTransmit_of_firstFails {q : State} {f : Frame} {m : Nat} {c : Cause} (hm : m < okCalls f)
    (h : q.FirstFails m c) :
    (seqTransmit q f).1 = .err
        { bitIndex := if m < 3 * f.length then m / 3 else f.length - 1
          line := if m % 3 = 0 then .data else .clock
          cause := c } ∧
      (seqTransmit q f).2.trace.length = q.trace.length + m + 3 := by
  rw [seqTransmit_eq_seqReturn]
  by_cases hloop : m < 3 * f.length
  · obtain ⟨t, hseq, htrace⟩ := seqBits_of_firstFails 0 hloop h
    simp only [hseq, seqReturn, seqAbort_trace_length, htrace, hloop]
    simp [seqAbort]
  · obtain ⟨hok, herr⟩ := h
    have hlast : f.getLast? = some true := by
      by_contra hlast
      simp [okCalls_eq, hlast] at hm
      omega
    obtain rfl : m = 3 * f.length := by simp [okCalls_eq, hlast] at hm; omega
    obtain ⟨t, hseq, htrace, hshift⟩ := seqBits_of_all_ok (q := q) 0 hok
    have htail : t.answerAt 0 = .err c := by rw [hshift, Nat.zero_add, herr]
    simp only [hseq, seqReturn, hlast, htail, if_true, seqAbort_trace_length]
    simp [seqAbort, htrace]

/-! ### Counts, return and samples -/

/-- Settles O49: the counts and positions of the sequential form, its calls counted from 0. -/
theorem callCountsAndReportedPosition : Obligations.CallCountsAndReportedPosition := by
  rintro s f rest ⟨hp, he, hb, a, c, d, hcmds, hcd, hf⟩
  obtain ⟨n, t, hreturns, hresult, hwire, -⟩ := transmit_returns_as_seqTransmit hp he hcmds hcd hf hb
  refine ⟨n + 1, t, hreturns, fun hok => ?_, fun k e hk hkf hok herr => ?_⟩
  · obtain ⟨hout, htrace⟩ := seqTransmit_of_all_ok (q := s.seqStart c d) hok
    refine ⟨by rw [hresult, hout], ?_⟩
    rw [State.trace_of_wire hwire, htrace, okCalls_eq]
    cases f <;> simp [State.seqStart]
  · obtain ⟨m, rfl⟩ := Nat.exists_eq_add_of_le' hk
    obtain ⟨hout, htrace⟩ := seqTransmit_of_firstFails (q := s.seqStart c d) hkf
      ⟨fun j hj => hok j (by omega), herr⟩
    refine ⟨by rw [State.trace_of_wire hwire, htrace]; simp [State.seqStart], ?_⟩
    have hdata : m % 3 = 0 ∨ m = 3 * f.length ↔ m % 3 = 0 := or_iff_left_of_imp (by omega)
    rw [hresult, hout]
    simp [hdata]

theorem okCalls_le (f : Frame) : okCalls f ≤ 3 * f.length + 1 := by
  rw [okCalls_eq]
  split <;> omega

/-- R170: R120 makes at most the calls of the frame, the tail and the restoration. -/
theorem seqTransmit_trace_length_le (q : State) (f : Frame) :
    (seqTransmit q f).2.trace.length ≤ q.trace.length + 3 * f.length + 3 := by
  have hmax := okCalls_le f
  obtain hok | ⟨m, c, hm, hfail⟩ := q.all_ok_or_firstFails (okCalls f)
  · obtain ⟨-, htrace⟩ := seqTransmit_of_all_ok hok
    omega
  · obtain ⟨-, htrace⟩ := seqTransmit_of_firstFails hm hfail
    omega

/-- Settles O50: the sequential form always has an outcome, and its calls are counted. -/
theorem everyTransmitReturns : Obligations.EveryTransmitReturns := by
  rintro s f rest ⟨hp, he, hb, a, c, d, hcmds, hcd, hf⟩
  obtain ⟨n, t, hreturns, hresult, hwire, hrest, hlen⟩ := transmit_returns_as_seqTransmit hp he hcmds hcd hf hb
  refine ⟨n + 1, t, hreturns, by simp [hresult], hrest, ?_, by rw [hlen]⟩
  rw [State.trace_of_wire hwire]
  simpa [State.seqStart] using seqTransmit_trace_length_le (s.seqStart c d) f

/-- Settles O51: the calls that all succeed are `okTrace`, from which the receiver samples the frame. -/
theorem receiverSamplesExactlyTheFrame : Obligations.ReceiverSamplesExactlyTheFrame := by
  intro s f rest hcalls hclk hok
  obtain ⟨n, t, c, d, hreturns, hresult, -, hstart, -, htrace⟩ := transmit_of_all_ok hcalls hok
  exact ⟨n, t, hreturns, hresult, samples_of_okTrace (hstart.trans hclk) htrace⟩

end Sys2Proof.Machine
end

section
/-! PROOFS. The line driver (41_line_driver.md 1 to 3 and 5): the start of a TRANSMIT and its refusals, each micro-step
for both answers, the lines that data calls and returns find and leave, and what the receiver may sample. -/

namespace Sys2Proof.Machine

/-! ### The lines at a data call and at a return -/

theorem State.WireInv.tickEvents {s : State} (h : s.WireInv) : s.tickEvents.WireInv := by
  unfold State.tickEvents
  split <;> exact h

theorem State.clkBeforeBit_of_startClk {s : State} (h : s.startClk = .low) : s.clkBeforeBit = .low := by
  simp [State.clkBeforeBit, h]

/-- R125: the clock in the phases that issue a data call. -/
theorem State.LinesAgree.clk_of_data {s : State} (h : s.LinesAgree) (hp : s.phase = .data)
    (hstart : s.startClk = .low) : s.clk = .low := by
  simp only [State.LinesAgree, hp] at h
  rw [h, State.clkBeforeBit_of_startClk hstart]

theorem State.LinesAgree.clk_of_tail {s : State} (h : s.LinesAgree) (hp : s.phase = .tail) : s.clk = .low := by
  simpa only [State.LinesAgree, hp] using h

theorem State.LinesAgree.clk_of_rstDat {s : State} (h : s.LinesAgree) (hp : s.phase = .rstDat) :
    s.clk = .low ∨ s.clk = .unknown := by
  simpa only [State.LinesAgree, hp] using h

/-- R115, R116: the data line holds its bit while the clock moves. -/
theorem State.LinesAgree.dat_of_clk {s : State} (h : s.LinesAgree) (hp : s.phase = .clkHi ∨ s.phase = .clkLo) {b : Bool}
    (hb : s.fr[s.i]? = some b) : s.dat = levelReg (lvl b) := by
  obtain hp | hp := hp <;> simp only [State.LinesAgree, hp] at h <;> exact h.2 b hb

/-- R66: a call code names its line. -/
theorem line_of_codeByte {l l' : Line} {v v' : Level}
    (h : some [codeByte (callCode l v)] = some [codeByte (callCode l' v')]) : l = l' := by
  cases l <;> cases l' <;> cases v <;> cases v' <;> revert h <;> decide

/-- Settles O40: the codes of the clock phases name the clock line, and the others find the clock as the invariant
says. -/
theorem dataMovesOnlyWhileTheClockIsLow : Obligations.DataMovesOnlyWhileTheClockIsLow := by
  rintro s t c ⟨-, hagree, -⟩ hstart hp hd h htrace hline
  obtain ⟨i, hc, hexec⟩ := step_microStep hp hd h
  obtain ⟨l, v, hcode, hcall, -⟩ := microStepIssuesTheCallItsCodeNames i _ _ _ hc hexec
  have hdata : l = .data := by
    rw [State.tickEvents_trace, htrace] at hcall
    rw [← hline, List.singleton_inj.mp (List.append_cancel_left hcall)]
  subst hdata
  cases hph : s.phase with
  | idle => exact absurd hph hp
  | data => exact .inl (hagree.clk_of_data hph hstart)
  | tail => exact .inl (hagree.clk_of_tail hph)
  | rstDat => exact (hagree.clk_of_rstDat hph).imp_right fun hclk => ⟨rfl, hclk⟩
  | clkHi | clkLo | rstClk =>
    rw [hph] at hc
    cases i <;> cases hc
    exact absurd (line_of_codeByte (l := .clock) hcode) (by decide)

/-- R126: a block that is back in IDLE has reported an error, or both lines are Low. -/
def State.LowOnOkReturn (t : State) : Prop :=
  t.phase = .idle → (t.result = some .ok ∧ t.clk = .low ∧ t.dat = .low) ∨ ∃ e, t.result = some (.err e)

theorem State.lowOnOkReturn_of_busy {t : State} (h : t.phase ≠ .idle) : t.LowOnOkReturn := fun hidle => absurd hidle h

/-- R145: a failed call enters restoration, so only the go-on can be back in IDLE. -/
theorem State.lowOnOkReturn_attempt {s : State} {l : Line} {v : Level} {k : Nat} {onOk : State → State}
    (hok : s.answerAt 0 = .ok → (onOk (s.setLevel l v)).LowOnOkReturn) : (s.attempt l v k onOk).LowOnOkReturn :=
  State.attempt_induction hok fun _ => State.lowOnOkReturn_of_busy (by simp)

/-- R126: the two successful returns are from a last bit 0, which the data line holds, and from the tail. -/
theorem microStep_lowOnOkReturn {i : Instr} {ph : Phase} {s t : State} (hs : s.LinesAgree)
    (hc : contextOf i = some (.call ph)) (h : exec i s = .next t) : t.LowOnOkReturn := by
  obtain ⟨hp, ⟨b, -, rfl, -, rfl⟩ | ⟨-, rfl, rfl⟩ | ⟨b, -, rfl, hb, rfl⟩ | ⟨-, rfl, rfl⟩ | ⟨-, rfl, rfl⟩ |
    ⟨e, -, -, -, rfl⟩⟩ := microStep_cases hc h
  · exact State.lowOnOkReturn_attempt fun _ => State.lowOnOkReturn_of_busy (by simp)
  · exact State.lowOnOkReturn_attempt fun _ => State.lowOnOkReturn_of_busy (by simp)
  · refine State.lowOnOkReturn_attempt fun ha => ?_
    obtain ⟨-, heq⟩ | ⟨-, -, heq⟩ | ⟨-, rfl, heq⟩ := (s.setLevel .clock .low).endBitPair_cases b <;> rw [heq]
    · exact State.lowOnOkReturn_of_busy (by simp)
    · exact State.lowOnOkReturn_of_busy (by simp)
    · have hdat : s.dat = .low := hs.dat_of_clk (.inr hp) hb
      exact fun _ => .inl ⟨rfl, by simp [ha, levelReg], by simp [hdat]⟩
  · refine State.lowOnOkReturn_attempt fun ha => ?_
    exact fun _ => .inl ⟨rfl, by simp [hs.clk_of_tail hp], by simp [ha, levelReg]⟩
  · exact State.lowOnOkReturn_of_busy (by simp)
  · exact fun _ => .inr ⟨e, rfl⟩

theorem seqReturn_ok_or_abort (f : Frame) (r : Option LineIOError × State) :
    (seqReturn f r).1 = .ok ∨ ∃ e u, seqReturn f r = seqAbort e u := by
  unfold seqReturn
  split
  · exact .inr ⟨_, _, rfl⟩
  · split
    · split
      · exact .inl rfl
      · exact .inr ⟨_, _, rfl⟩
    · exact .inl rfl

/-- R120: an error is returned through `ABORT`. -/
theorem seqTransmit_of_err {q : State} {f : Frame} {e : LineIOError} (h : (seqTransmit q f).1 = .err e) :
    ∃ u, seqTransmit q f = seqAbort e u := by
  rw [seqTransmit_eq_seqReturn] at h ⊢
  obtain hok | ⟨e', u, heq⟩ := seqReturn_ok_or_abort f (seqBits q 0 f)
  · rw [hok] at h
    cases h
  · rw [heq] at h ⊢
    cases h
    exact ⟨u, rfl⟩

/-- Settles O46: the last micro-step before an `Ok`, the start step of the empty frame, and R120's `ABORT`. -/
theorem idleLinesAtReturn : Obligations.IdleLinesAtReturn := by
  refine ⟨fun s t hwire hp hd h hidle => ?_, fun s a c d hp hcd hf => ?_, ?_⟩
  · obtain ⟨i, hc, hexec⟩ := step_microStep hp hd h
    obtain ⟨-, hagree, -⟩ := hwire.tickEvents
    exact microStep_lowOnOkReturn hagree hc hexec hidle
  · exact ⟨s.startTransmit [] c d, exec_transmit_of_accepts hp hcd hf (by simp), rfl, rfl, rfl⟩
  · rintro s f rest n t e ⟨hp, he, hb, a, c, d, hcmds, hcd, hf⟩ hreturns herr
    obtain ⟨m, t', hreturns', hresult, hwire, -⟩ := transmit_returns_as_seqTransmit hp he hcmds hcd hf hb
    obtain ⟨-, rfl⟩ := hreturns.unique hreturns'
    obtain ⟨u, hu⟩ := seqTransmit_of_err (Option.some.inj (hresult.symm.trans herr))
    rw [hu] at hwire
    refine ⟨u.trace, u.answerAt 0, u.answerAt 1, ?_, ?_, ?_⟩
    · rw [State.trace_of_wire hwire, State.clockLine_of_wire hwire, State.dataLine_of_wire hwire]
      simp [seqAbort, State.handleOf]
    · rw [State.clk_of_wire hwire, ← lineAfter_low]
      simp [seqAbort]
    · rw [State.dat_of_wire hwire, ← lineAfter_low]
      simp [seqAbort]

/-! ### What the receiver may sample -/

theorem LineLevel.mem_bits {v : LineLevel} {x : Bool} :
    x ∈ v.bits ↔ v = .unknown ∨ (v = .high ∧ x = true) ∨ (v = .low ∧ x = false) := by
  cases v <;> cases x <;> simp [LineLevel.bits]

/-- R123: only a clock-high call is sampled. -/
theorem Call.sampling_of_not_rise {c : Call} (h : ¬ (c.line = .clock ∧ c.level = .high)) (clk : LineLevel) :
    c.sampling clk = .never := by
  unfold Call.sampling
  split
  · exact absurd ⟨by assumption, by assumption⟩ h
  · rfl

theorem Call.sampling_ne_never_iff (c : Call) (clk : LineLevel) :
    c.sampling clk ≠ .never ↔
      c.line = .clock ∧ c.level = .high ∧ ((c.answer = .ok ∧ clk ≠ .high) ∨ c.answer ≠ .ok) := by
  by_cases hrise : c.line = .clock ∧ c.level = .high
  · obtain ⟨hl, hv⟩ := hrise
    cases ha : c.answer <;> cases clk <;> simp [Call.sampling, hl, hv, ha]
  · simp only [Call.sampling_of_not_rise hrise]
    tauto

theorem Call.sampling_ne_must_iff (c : Call) (clk : LineLevel) :
    c.sampling clk ≠ .must ↔ ¬ (c.line = .clock ∧ c.level = .high ∧ c.answer = .ok ∧ clk = .low) := by
  by_cases hrise : c.line = .clock ∧ c.level = .high
  · obtain ⟨hl, hv⟩ := hrise
    cases ha : c.answer <;> cases clk <;> simp [Call.sampling, hl, hv, ha]
  · rw [Call.sampling_of_not_rise hrise]
    tauto

theorem mem_flatMap_map_cons {bits xs : List Bool} {rest : List (List Bool)} :
    xs ∈ bits.flatMap (fun b => rest.map (b :: ·)) ↔ ∃ x xs', xs = x :: xs' ∧ x ∈ bits ∧ xs' ∈ rest := by
  simp only [List.mem_flatMap, List.mem_map]
  constructor
  · rintro ⟨x, hx, xs', hxs', rfl⟩
    exact ⟨x, xs', rfl, hx, hxs'⟩
  · rintro ⟨x, xs', rfl, hx, hxs'⟩
    exact ⟨x, hx, xs', hxs', rfl⟩

/-- R123: a sequence takes a bit of the data line where the call may be sampled, or none where it need not be. -/
theorem mem_sampleChoices_cons {clk dat : LineLevel} {c : Call} {cs : List Call} {xs : List Bool} :
    xs ∈ sampleChoices clk dat (c :: cs) ↔
      (c.sampling clk ≠ .never ∧ ∃ x xs', xs = x :: xs' ∧ x ∈ dat.bits ∧
        xs' ∈ sampleChoices (c.after .clock clk) (c.after .data dat) cs) ∨
      (c.sampling clk ≠ .must ∧ xs ∈ sampleChoices (c.after .clock clk) (c.after .data dat) cs) := by
  rw [sampleChoices, ← mem_flatMap_map_cons]
  cases c.sampling clk <;> simp

/-- Settles O47: the walk of R123, with the two conditions on a call written out. -/
theorem receiverSamplesOnRisingEdges : Obligations.ReceiverSamplesOnRisingEdges := by
  refine fun clk dat c cs xs => ⟨rfl, ?_⟩
  rw [mem_sampleChoices_cons, Call.sampling_ne_never_iff, Call.sampling_ne_must_iff]
  refine or_congr ⟨?_, ?_⟩ Iff.rfl
  · rintro ⟨⟨hline, hlevel, hedge⟩, x, xs', hxs, hx, hrest⟩
    exact ⟨x, xs', hxs, hline, hlevel, hedge, LineLevel.mem_bits.mp hx, hrest⟩
  · rintro ⟨x, xs', hxs, hline, hlevel, hedge, hx, hrest⟩
    exact ⟨⟨hline, hlevel, hedge⟩, x, xs', hxs, LineLevel.mem_bits.mpr hx, hrest⟩

/-! ### The start of a TRANSMIT and its refusals -/

/-- Settles O19: each operand form denotes `f`, and the start step writes what R112 says. -/
theorem transmitStarts : Obligations.TransmitStarts := by
  intro a f c d s hp hcd ha hb
  have hf : resolveFrame s.returned a = some f := by
    obtain rfl | ⟨ws, rfl, rfl⟩ | ⟨rfl, hret⟩ := ha
    · rfl
    · rfl
    · exact hret
  rw [exec_transmit_of_accepts hp hcd hf hb]
  constructor
  · rintro rfl
    rfl
  · intro hne
    simp [State.startTransmit, hne]

theorem exec_transmit_of_busy (a : FrameArg) (c d : Handle) {s : State} (hp : s.phase ≠ .idle) :
    exec (.transmit a c d) s = .refused .transmitInProgress := by simp [exec, execTransmit, hp]

/-- Settles O20: a landing event runs the same TRANSMIT, and the phase check comes first. -/
theorem secondTransmitIsRefused : Obligations.SecondTransmitIsRefused := by
  refine fun a c d s hp => ⟨exec_transmit_of_busy a c d hp, fun es he => ?_⟩
  have hstep : step s = exec (.transmit a c d) { s with events := es } := by
    simp [step, State.dueEvent, he, takeEvent]
  exact hstep.trans (exec_transmit_of_busy a c d hp)

/-- Settles O21: after the phase check come the handles and then the frame. -/
theorem unusableOperandsAreRefused : Obligations.UnusableOperandsAreRefused := by
  refine ⟨fun a c s hp => ?_, fun c d s hp hcd hret => ?_⟩
  · simp [exec, execTransmit, hp]
  · simp [exec, execTransmit, hp, hcd, resolveFrame, hret]

/-! ### One call and its micro-step -/

theorem levelReg_eq_ite (v : Level) : levelReg v = if v = .high then .high else .low := by cases v <;> rfl

/-- Settles O22: by the field lemmas of `setLevel`. -/
theorem setLevelSetsItsLine : Obligations.SetLevelSetsItsLine := by
  refine fun s v => ⟨fun ha => ?_, fun c ha => ?_, by simp, by simp, fun l => by simp⟩
  · simp [ha, levelReg_eq_ite]
  · simp [ha]

theorem exec_drvData {s : State} {b : Bool} (hp : s.phase = .data) (hb : s.fr[s.i]? = some b) :
    exec (.drvData b) s = .next (s.attempt .data (lvl b) s.i (·.goto .clkHi)) := by
  simp [exec, execDrvData, inPhase, hp, hb]

theorem exec_drvClkRise {s : State} (hp : s.phase = .clkHi) :
    exec .drvClkRise s = .next (s.attempt .clock .high s.i (·.goto .clkLo)) := by
  simp [exec, execDrvClkRise, inPhase, hp]

theorem exec_drvClkFall {s : State} {b : Bool} (hp : s.phase = .clkLo) (hb : s.fr[s.i]? = some b) :
    exec .drvClkFall s = .next (s.attempt .clock .low s.i (State.endBitPair b)) := by
  simp [exec, execDrvClkFall, inPhase, hp, hb]

theorem exec_drvTail {s : State} (hp : s.phase = .tail) :
    exec .drvTail s = .next (s.attempt .data .low (s.fr.length - 1) (·.finish .ok)) := by
  simp [exec, execDrvTail, inPhase, hp]

theorem exec_drvRstClk {s : State} (hp : s.phase = .rstClk) :
    exec .drvRstClk s = .next ((s.setLevel .clock .low).goto .rstDat) := by
  simp [exec, execDrvRstClk, inPhase, hp]

theorem exec_drvRstDat {s : State} {e : LineIOError} (hp : s.phase = .rstDat) (he : s.pend = some e) :
    exec .drvRstDat s = .next ((s.setLevel .data .low).report e) := by
  simp [exec, execDrvRstDat, inPhase, hp, he]

/-- Settles O23: the two branches of the attempt, and the invariant's clock in phase DATA. -/
theorem drvDataPutsTheBit : Obligations.DrvDataPutsTheBit := by
  intro s b hp hb
  rw [exec_drvData hp hb]
  refine ⟨fun ha => ?_, fun c ha => ?_, fun ⟨_, hagree, _⟩ => hagree.clk_of_data hp⟩
  · rw [State.attempt_of_ok ha, State.setLevel_data, ha]
    cases b <;> rfl
  · rw [State.attempt_of_err ha, State.setLevel_data, ha]
    cases b <;> rfl

/-- R123: what a clock-high call lets the receiver see of a data line that holds `b`. -/
theorem sampleChoices_rise (h : Handle) (b : Bool) (clk : LineLevel) :
    sampleChoices .low (levelReg (lvl b)) [{ line := .clock, handle := h, level := .high, answer := .ok }] = [[b]] ∧
      ∀ c, sampleChoices clk (levelReg (lvl b))
        [{ line := .clock, handle := h, level := .high, answer := .err c }] = [[b], []] := by
  cases b <;> simp [sampleChoices, Call.sampling, LineLevel.bits]

/-- Settles O24: the two branches of the attempt, and the invariant's data line in phase CLK_HI. -/
theorem drvClkRiseRaisesTheClock : Obligations.DrvClkRiseRaisesTheClock := by
  intro s hp
  rw [exec_drvClkRise hp]
  refine ⟨fun ha => ?_, fun c ha => ?_, fun ⟨_, hagree, _⟩ b hb => ?_, fun ⟨_, hagree, _⟩ b hb => ?_⟩
  · rw [State.attempt_of_ok ha, State.setLevel_clock, ha]
    rfl
  · rw [State.attempt_of_err ha, State.setLevel_clock, ha]
    rfl
  · rw [hagree.dat_of_clk (.inl hp) hb, levelReg_lvl]
  · obtain ⟨hok, herr⟩ := sampleChoices_rise s.clockLine b s.clk
    rw [hagree.dat_of_clk (.inl hp) hb]
    exact ⟨fun hclk => hclk ▸ hok, herr⟩

/-- R116: which of the three successors the end of a bit-pair enters. -/
theorem State.endBitPair_successor (b : Bool) (s : State) :
    (s.i + 1 < s.fr.length →
        (s.endBitPair b).i = s.i + 1 ∧ (s.endBitPair b).phase = .data ∧ (s.endBitPair b).result = s.result) ∧
      (¬ s.i + 1 < s.fr.length → b = true →
        (s.endBitPair b).i = s.i ∧ (s.endBitPair b).phase = .tail ∧ (s.endBitPair b).result = s.result) ∧
      (¬ s.i + 1 < s.fr.length → b = false →
        (s.endBitPair b).i = s.i ∧ (s.endBitPair b).phase = .idle ∧ (s.endBitPair b).result = some .ok) := by
  obtain ⟨hlt, heq⟩ | ⟨hlast, rfl, heq⟩ | ⟨hlast, rfl, heq⟩ := s.endBitPair_cases b <;> rw [heq]
  · exact ⟨fun _ => ⟨rfl, rfl, rfl⟩, fun hlast => absurd hlt hlast, fun hlast => absurd hlt hlast⟩
  · exact ⟨fun hlt => absurd hlt hlast, fun _ _ => ⟨rfl, rfl, rfl⟩, fun _ h => (nomatch h)⟩
  · exact ⟨fun hlt => absurd hlt hlast, fun _ h => (nomatch h), fun _ _ => ⟨rfl, rfl, rfl⟩⟩

/-- R116, R122: TAIL follows a last bit 1 only. -/
theorem State.endBitPair_phase_ne_tail {s : State} {b : Bool} (hb : s.fr[s.i]? = some b)
    (hf : s.fr.getLast? = some false) : (s.endBitPair b).phase ≠ .tail := by
  obtain ⟨-, heq⟩ | ⟨hlast, rfl, -⟩ | ⟨-, -, heq⟩ := s.endBitPair_cases b
  · simp [heq]
  · obtain ⟨hlt, -⟩ := List.getElem?_eq_some_iff.mp hb
    have hend : s.fr.length - 1 = s.i := by omega
    rw [List.getLast?_eq_getElem?, hend, hb] at hf
    cases hf
  · simp [heq]

/-- Settles O25: the two branches of the attempt, and the last bit of an ENCODE frame is 0. -/
theorem drvClkFallEndsTheBitPair : Obligations.DrvClkFallEndsTheBitPair := by
  intro s b hp hb
  rw [exec_drvClkFall hp hb]
  refine ⟨fun ha => ?_, fun c ha => ?_, fun strip t hf ht => ?_⟩
  · rw [State.attempt_of_ok ha]
    obtain ⟨hnext, htail, hreturn⟩ := (s.setLevel .clock .low).endBitPair_successor b
    refine ⟨_, rfl, by simpa using hnext, by simpa using htail, by simpa using hreturn, ?_⟩
    rw [State.endBitPair_frame, State.setLevel_clock, ha]
    rfl
  · rw [State.attempt_of_err ha, State.setLevel_clock, ha]
    rfl
  · cases ht
    refine State.attempt_induction (P := fun t => t.phase ≠ .tail) (fun _ => ?_) fun _ => by simp
    exact State.endBitPair_phase_ne_tail (by simpa using hb) (by simp [hf, encodeFrame_getLast?])

/-- Settles O26: the two branches of the attempt. -/
theorem drvTailReturnsDataLow : Obligations.DrvTailReturnsDataLow := by
  intro s hp
  rw [exec_drvTail hp]
  refine ⟨fun ha => ?_, fun c ha => ?_⟩
  · rw [State.attempt_of_ok ha, State.setLevel_data, ha]
    rfl
  · rw [State.attempt_of_err ha, State.setLevel_data, ha]
    rfl

/-- Settles O27: the call's fields, whatever its answer. -/
theorem drvRstClkIgnoresItsOutcome : Obligations.DrvRstClkIgnoresItsOutcome := by
  intro s hp
  rw [exec_drvRstClk hp, State.setLevel_clock, lineAfter_low]
  rfl

/-- Settles O28: the call's fields, whatever its answer. -/
theorem drvRstDatReportsTheError : Obligations.DrvRstDatReportsTheError := by
  intro s e hp he
  rw [exec_drvRstDat hp he, State.setLevel_data, lineAfter_low]
  rfl

end Sys2Proof.Machine
end

section
/-! PROOFS. The exceptions (60_exceptions.md): a failed call enters restoration with its error, and restoration returns
that error. -/

namespace Sys2Proof.Machine

/-! ### Abort entry -/

theorem State.SequencerInv.i_eq_of_tail {s : State} (h : s.SequencerInv) (hp : s.phase = .tail) :
    s.fr.length - 1 = s.i := by
  obtain ⟨-, h⟩ := h
  simp only [hp] at h
  obtain ⟨hlast, -⟩ := h
  omega

/-- R142, R145: the failed call of a bit-pair or of the tail aborts with bit-pair `i` and the phase's line. -/
theorem stepBlock_of_failed_call {s : State} {c : Cause} (hs : s.SequencerInv) (hfail : s.answerAt 0 = .err c)
    (hp : s.phase = .data ∨ s.phase = .clkHi ∨ s.phase = .clkLo ∨ s.phase = .tail) :
    ∃ l v, l = (if s.phase = .data ∨ s.phase = .tail then .data else .clock) ∧
      stepBlock s = .next ((s.setLevel l v).abort s.i l c) := by
  have hb : s.fr[s.i]? = some (s.fr[s.i]'(hs.inBitPair hp).i_lt) := List.getElem?_eq_getElem _
  rcases hp with hp | hp | hp | hp
  · exact ⟨.data, lvl _, by simp [hp], by rw [stepBlock_data hp hb, State.attempt_of_err hfail]⟩
  · exact ⟨.clock, .high, by simp [hp], by rw [stepBlock_clkHi hp, State.attempt_of_err hfail]⟩
  · exact ⟨.clock, .low, by simp [hp], by rw [stepBlock_clkLo hp hb, State.attempt_of_err hfail]⟩
  · exact ⟨.data, .low, by simp [hp], by rw [stepBlock_tail hp, State.attempt_of_err hfail, hs.i_eq_of_tail hp]⟩

/-- Settles O44: the block's own action after the tick is the abort, which writes only `pend` and `phase`. -/
theorem failedCallEntersRestoration : Obligations.FailedCallEntersRestoration := by
  intro s c hs hdue hfail hp
  obtain ⟨l, v, hl, hstep⟩ :=
    stepBlock_of_failed_call hs.tickEvents (by simpa using hfail) (by simpa using hp)
  rw [State.tickEvents_phase] at hl
  exact ⟨_, (step_of_not_due hdue).trans hstep, rfl, by simp [hl], by simp, by simp, by simp⟩

/-! ### Restoration -/

/-- R118, R119, R146: restoration is the two calls in order, whatever their answers, and the report of the pending
error. -/
theorem runFor_restoration {s : State} {e : LineIOError} (hp : s.phase = .rstClk) (he : s.events = [])
    (hpend : s.pend = some e) :
    runFor 2 s = .next ((((s.setLevel .clock .low).goto .rstDat).setLevel .data .low).report e) := by
  have hclk : step s = .next ((s.setLevel .clock .low).goto .rstDat) := by
    rw [step_of_no_events he, stepBlock_rstClk hp]
  have hdat : step ((s.setLevel .clock .low).goto .rstDat) =
      .next ((((s.setLevel .clock .low).goto .rstDat).setLevel .data .low).report e) := by
    rw [step_of_no_events (by simpa using he), stepBlock_rstDat rfl (by simpa using hpend)]
  rw [runFor_succ hclk, runFor_succ hdat]
  rfl

/-- Settles O45: the fields of the state after the two calls and the report. -/
theorem restorationReturnsTheFirstError : Obligations.RestorationReturnsTheFirstError := by
  intro s e hp he hpend
  refine ⟨_, runFor_restoration hp he hpend, rfl, rfl, rfl, ?_, ?_, ?_⟩
  · simp [State.handleOf]
  · simp [lineAfter_low]
  · simp [lineAfter_low]

end Sys2Proof.Machine
end
